-- ==== Sys2Proof/Word.lean ====
section
/-!
DEFINITION. The fixed-width words of the UInt128 CORE unit (spec/00_scope.md R5, spec/10_state.md R10): a 128-bit
Value, its 64-bit halves, the multiplier's 32-bit limbs, and the opcode byte. Every quantity is unsigned; bit 0 is the
least significant bit. Taking a Value apart and putting it together stands in Sys2Proof/Machine/Operands.lean.
-/
namespace Sys2Proof

/-- The opcode byte of a request, and one of the 16 bytes of a Value (R30, R21). -/
abbrev Byte := BitVec 8

/-- A 32-bit limb, the multiplier's segment of an operand (R53). -/
abbrev Limb := BitVec 32

/-- A 64-bit half of a Value (R10). -/
abbrev Half := BitVec 64

/-- A Value: `high * 2^64 + low` with `high = v[127:64]` and `low = v[63:0]`; all 2^128 patterns are legal (R10). -/
abbrev Value := BitVec 128

end Sys2Proof
end

