-- ==== Sys2Proof/Config.lean ====
section
/-!
DEFINITION. The fixed parameters of the unit (spec/00_scope.md R4, spec/40_storage.md R44). None is configurable at
run time, and the spec leaves no value of the unit free (spec/93_implementation_defined.md: "Nothing in the unit is
`any value` by default"), so this file holds no opaque constant.
-/
namespace Sys2Proof.Config

/-- `BITWIDTH`, the "bit width constant (128)" (R4). -/
def bitWidth : Nat := 128

/-- `HALF`, the width of `high` and of `low` (R4). -/
def halfWidth : Nat := 64

/-- `LIMB`, the width of a multiplication limb (R4). -/
def limbWidth : Nat := 32

/-- Four limbs per operand (R4). -/
def limbsPerOperand : Nat := 4

/-- `MIN`, the all-zero value (R4, R44). -/
def minValue : Value := 0#128

/-- `MAX`, the all-bits-set value (R4, R44). -/
def maxValue : Value := 0xFFFFFFFFFFFFFFFFFFFFFFFFFFFFFFFF#128

/-- The shift policies a build of the unit may have: R80 and D15 pick exactly one and provide no other. -/
inductive ShiftPolicy where
  /-- The amount is reduced modulo the bit width before it is applied. -/
  | masked
  deriving DecidableEq, Repr

/-- `SHIFT_POLICY = masked` (R4, R80). -/
def shiftPolicy : ShiftPolicy := .masked

/-- The number of general registers: none (R4, R12). -/
def generalRegisters : Nat := 0

/-- The number of privilege modes: one (R4, R109). -/
def privilegeModes : Nat := 1

end Sys2Proof.Config
end

