-- ==== Sys2Proof/Syntax.lean ====
section
/-!
DEFINITION. What a host says to the unit: the request record (spec/30_encoding.md R30), the 19 operations (R33), and
the lines of a program run (R38, spec/92_eei_decisions.md D30).
-/
namespace Sys2Proof

/-- The request record `(opc, a, b)` (R30), the only instruction format there is. -/
structure Request where
  /-- The opcode byte, `req[263:256]`. -/
  opc : Byte
  /-- The first operand, `req[255:128]`. -/
  a : Value
  /-- The second operand, `req[127:0]`; the shift amount of SHL and SHR. -/
  b : Value
  deriving DecidableEq, Repr

/-- A decoded request: one constructor per row of the opcode map (R33), with both operands taken whole from the
request (R35). The one-operand operations carry the field `b` of their request too, so that a request with a legal
opcode and its decoded form say the same; that they ignore it is a fact about their meanings (R36). -/
inductive Instr where
  /-- ADD, opcode 0x01 (R45). -/
  | add (a b : Value)
  /-- SUB, opcode 0x02 (R48). -/
  | sub (a b : Value)
  /-- MUL, opcode 0x03 (R57). -/
  | mul (a b : Value)
  /-- DIV, opcode 0x04 (R68). -/
  | div (a b : Value)
  /-- REM, opcode 0x05 (R69). -/
  | rem (a b : Value)
  /-- DIVREM, opcode 0x06 (R67). -/
  | divrem (a b : Value)
  /-- AND, opcode 0x08 (R73). -/
  | and (a b : Value)
  /-- OR, opcode 0x09 (R74). -/
  | or (a b : Value)
  /-- XOR, opcode 0x0A (R75). -/
  | xor (a b : Value)
  /-- NOT, opcode 0x0B, `b` ignored (R76). -/
  | not (a b : Value)
  /-- SHL, opcode 0x0C, `b` the amount (R82). -/
  | shl (a b : Value)
  /-- SHR, opcode 0x0D, `b` the amount (R83). -/
  | shr (a b : Value)
  /-- BSWAP, opcode 0x0E, `b` ignored (R77). -/
  | bswap (a b : Value)
  /-- SIGB, opcode 0x0F, `b` ignored (R43). -/
  | sigb (a b : Value)
  /-- CMPEQ, opcode 0x10 (R88). -/
  | cmpeq (a b : Value)
  /-- CMPLT, opcode 0x11 (R89). -/
  | cmplt (a b : Value)
  /-- ADD.T, opcode 0x21 (R47). -/
  | addT (a b : Value)
  /-- SUB.T, opcode 0x22 (R50). -/
  | subT (a b : Value)
  /-- MUL.T, opcode 0x23 (R59). -/
  | mulT (a b : Value)
  deriving DecidableEq, Repr

/-- The three outputs a line of a program binds: `(r, r2, ovf) = MNEMONIC a, b` (R38). -/
inductive ResultField where
  /-- The primary result. -/
  | r
  /-- The secondary result. -/
  | r2
  /-- The overflow flag. -/
  | ovf
  deriving DecidableEq, Repr

/-- An operand of a program's line (R38): a literal, or a host variable bound by an earlier line. A variable is named
by the number of the line that binds it (the first line is 0) and the output it names. -/
inductive Operand where
  /-- A literal value; a program's start values are literals too. -/
  | lit (v : Value)
  /-- The variable bound to an output of an earlier line. -/
  | result (line : Nat) (field : ResultField)
  deriving DecidableEq, Repr

/-- One transaction of a program (R38, D30). The opcode is a raw byte, since a host may issue any request (R112). -/
structure Line where
  /-- The opcode byte to issue. -/
  opc : Byte
  /-- The first operand. -/
  a : Operand
  /-- The second operand; the literal 0 for the one-operand operations (R38). -/
  b : Operand
  deriving DecidableEq, Repr

end Sys2Proof
end

