-- ==== Sys2Proof/WellFormed.lean ====
section
/-!
DEFINITION. What the assembler of spec/30_encoding.md R38 writes: an instruction whose unused operand is 0, and a
program whose every host variable is bound by an earlier line. The unit itself asks for neither: it has no illegal
operand value (R36), and every statement about it holds for all requests.
-/
namespace Sys2Proof

/-- The one-operand operations are assembled with `b = 0` (R38). -/
def Instr.wellFormed : Instr → Bool
  | .add _ _ | .sub _ _ | .mul _ _ => true
  | .div _ _ | .rem _ _ | .divrem _ _ => true
  | .and _ _ | .or _ _ | .xor _ _ => true
  | .not _ b => b == 0#128
  | .shl _ _ | .shr _ _ => true
  | .bswap _ b => b == 0#128
  | .sigb _ b => b == 0#128
  | .cmpeq _ _ | .cmplt _ _ => true
  | .addT _ _ | .subT _ _ | .mulT _ _ => true

/-- The operand is a literal or a variable bound by one of the first `n` lines (R38). -/
def Operand.boundBefore (n : Nat) : Operand → Bool
  | .lit _ => true
  | .result k _ => decide (k < n)

/-- Both operands of a line with `n` lines before it are bound (R38). -/
def Line.boundBefore (n : Nat) (l : Line) : Bool :=
  l.a.boundBefore n && l.b.boundBefore n

/-- Every line of the rest of a program is bound, `n` lines having gone before it (R38). -/
def programBound (n : Nat) : List Line → Bool
  | [] => true
  | l :: rest => l.boundBefore n && programBound (n + 1) rest

/-- A program is well formed when each variable is bound by an earlier line (R38, D30). -/
def programWellFormed (p : List Line) : Bool :=
  programBound 0 p

end Sys2Proof
end

