-- ==== Sys2Proof/Decode.lean ====
section
/-!
DEFINITION. Encoding and decoding of requests (spec/30_encoding.md): the 264-bit request word (R30), the opcode map
(R33) with a name for each way to be illegal (R34, R36), the encoder beside it, the pseudo-operation CMPGT (R39), and
the numbering of an instruction's bits that spec/opcode_table.json uses.
-/
namespace Sys2Proof

/-! ## The request word -/

/-- The request a 264-bit word holds: `opc` at `[263:256]`, `a` at `[255:128]`, `b` at `[127:0]` (R30). -/
def Request.ofWord (w : BitVec 264) : Request :=
  { opc := w.extractLsb' 256 8, a := w.extractLsb' 128 128, b := w.extractLsb' 0 128 }

/-- The 264-bit word of a request (R30). -/
def Request.toWord (req : Request) : BitVec 264 :=
  req.opc ++ req.a ++ req.b

/-! ## The opcode byte -/

/-- The upper bits `opc[7:6]`, which must be 00 (R34). -/
def opcUpper (opc : Byte) : BitVec 2 :=
  opc.extractLsb' 6 2

/-- The T bit `opc[5]`: set selects the trapping variant (R34). -/
def opcTrapping (opc : Byte) : Bool :=
  opc.getLsbD 5

/-- The function number `opc[4:0]` (R34). -/
def opcFunction (opc : Byte) : BitVec 5 :=
  opc.extractLsb' 0 5

/-- Why an opcode is illegal, by the groups R36 lists; each of them raises IllegalOp. -/
inductive Reject where
  /-- `opc[7:6]` is not 00: 0x40 to 0xFF. -/
  | upperBitsSet
  /-- The T bit is set with a function number other than 1, 2, 3: 0x20 and 0x24 to 0x3F. -/
  | noTrappingVariant
  /-- The T bit is clear and the function number is unassigned: 0x00, 0x07, 0x12 to 0x1F. -/
  | unassignedFunction
  deriving DecidableEq, Repr

/-- The group of R36 an illegal opcode falls in. -/
def rejectReason (opc : Byte) : Reject :=
  if opcUpper opc ≠ 0#2 then .upperBitsSet
  else if opcTrapping opc then .noTrappingVariant
  else .unassignedFunction

/-- `decode` (R32, R33): the operation is selected by the exact opcode byte alone, and the operands are taken whole
(R35). Every byte that is not in the opcode map is illegal (R36). -/
def decode (req : Request) : Except Reject Instr :=
  match req.opc with
  | 0x01#8 => .ok (.add req.a req.b)
  | 0x02#8 => .ok (.sub req.a req.b)
  | 0x03#8 => .ok (.mul req.a req.b)
  | 0x04#8 => .ok (.div req.a req.b)
  | 0x05#8 => .ok (.rem req.a req.b)
  | 0x06#8 => .ok (.divrem req.a req.b)
  | 0x08#8 => .ok (.and req.a req.b)
  | 0x09#8 => .ok (.or req.a req.b)
  | 0x0A#8 => .ok (.xor req.a req.b)
  | 0x0B#8 => .ok (.not req.a req.b)
  | 0x0C#8 => .ok (.shl req.a req.b)
  | 0x0D#8 => .ok (.shr req.a req.b)
  | 0x0E#8 => .ok (.bswap req.a req.b)
  | 0x0F#8 => .ok (.sigb req.a req.b)
  | 0x10#8 => .ok (.cmpeq req.a req.b)
  | 0x11#8 => .ok (.cmplt req.a req.b)
  | 0x21#8 => .ok (.addT req.a req.b)
  | 0x22#8 => .ok (.subT req.a req.b)
  | 0x23#8 => .ok (.mulT req.a req.b)
  | _ => .error (rejectReason req.opc)

/-- Decoding of a flat request word, total on all 2^264 of them. -/
def decodeWord (w : BitVec 264) : Except Reject Instr :=
  decode (Request.ofWord w)

/-! ## The encoder -/

/-- The request of an instruction, from the same opcode map (R33). -/
def encode : Instr → Request
  | .add a b => ⟨0x01#8, a, b⟩
  | .sub a b => ⟨0x02#8, a, b⟩
  | .mul a b => ⟨0x03#8, a, b⟩
  | .div a b => ⟨0x04#8, a, b⟩
  | .rem a b => ⟨0x05#8, a, b⟩
  | .divrem a b => ⟨0x06#8, a, b⟩
  | .and a b => ⟨0x08#8, a, b⟩
  | .or a b => ⟨0x09#8, a, b⟩
  | .xor a b => ⟨0x0A#8, a, b⟩
  | .not a b => ⟨0x0B#8, a, b⟩
  | .shl a b => ⟨0x0C#8, a, b⟩
  | .shr a b => ⟨0x0D#8, a, b⟩
  | .bswap a b => ⟨0x0E#8, a, b⟩
  | .sigb a b => ⟨0x0F#8, a, b⟩
  | .cmpeq a b => ⟨0x10#8, a, b⟩
  | .cmplt a b => ⟨0x11#8, a, b⟩
  | .addT a b => ⟨0x21#8, a, b⟩
  | .subT a b => ⟨0x22#8, a, b⟩
  | .mulT a b => ⟨0x23#8, a, b⟩

/-- The 264-bit request word of an instruction (R30, R33). -/
def encodeWord (i : Instr) : BitVec 264 :=
  (encode i).toWord

/-- The opcode map as R33 prints it: the opcode byte and the mnemonic of each of the 19 rows. -/
def opcodeMap : List (Byte × String) :=
  [(0x01#8, "ADD"), (0x02#8, "SUB"), (0x03#8, "MUL"), (0x04#8, "DIV"), (0x05#8, "REM"), (0x06#8, "DIVREM")] ++
  [(0x08#8, "AND"), (0x09#8, "OR"), (0x0A#8, "XOR"), (0x0B#8, "NOT"), (0x0C#8, "SHL"), (0x0D#8, "SHR")] ++
  [(0x0E#8, "BSWAP"), (0x0F#8, "SIGB"), (0x10#8, "CMPEQ"), (0x11#8, "CMPLT")] ++
  [(0x21#8, "ADD.T"), (0x22#8, "SUB.T"), (0x23#8, "MUL.T")]

/-- The pseudo-operation CMPGT, the only one: `CMPGT a, b` is `CMPLT b, a` (R39). -/
def cmpgt (a b : Value) : Instr :=
  .cmplt b a

/-- The pseudo-operation CMPGT as a line of a program (R39). -/
def Line.cmpgt (a b : Operand) : Line :=
  ⟨0x11#8, b, a⟩

/-! ## The opcode table's numbering of an instruction's bits -/

/-- The request whose bits, numbered as spec/opcode_table.json numbers them, are the low `nbits` bits of `w`: the
table's bits 7 to 0 are the opcode byte, and the operands' bits count on from it, first `a` and then `b`. The table
gives a row 8 bits, so both operands are then 0. DESIGN CHOICE (notes/assumptions/1.md): the order of the operands
above bit 7 is the model's, since the table numbers none of their bits. -/
def Request.ofTable (nbits w : Nat) : Request :=
  let v := w % 2 ^ nbits
  { opc := BitVec.ofNat 8 v, a := BitVec.ofNat 128 (v / 2 ^ 8), b := BitVec.ofNat 128 (v / 2 ^ 136) }

/-- The instruction the decoder reads from a row of spec/opcode_table.json; none where it refuses. -/
def decodeTableWord (nbits w : Nat) : Option Instr :=
  match decode (Request.ofTable nbits w) with
  | .ok i => some i
  | .error _ => none

end Sys2Proof
end

