-- ==== Sys2Proof/Machine/State.lean ====
section
/-!
DEFINITION. The state of the machine as plain data: the unit (spec/10_state.md: it has no register, flag, program
counter, control register or memory, only a transaction that is outstanding or not and a response record that holds a
value or none), and the host that issues the transactions of a program run (spec/00_scope.md R8,
spec/60_exceptions.md R105, R112).
-/
namespace Sys2Proof.Machine

/-- The three faults of the unit (R100, U4: a fault type has exactly three constructors). The spec delivers a fault AS
THE RESPONSE of the faulting transaction (R104), and the unit goes on; so a step never stops with one of these: it
answers a next state whose response is the fault. -/
inductive Fault where
  /-- Raised by the decoder: the opcode is not in the opcode map (R101). Safe: as the spec says. -/
  | illegalOp
  /-- Raised by DIV, REM and DIVREM for a zero divisor (R102). Safe: as the spec says. -/
  | divideByZero
  /-- Raised by ADD.T, SUB.T and MUL.T when the primitive's overflow bit is 1 (R103). Safe: as the spec says. -/
  | overflow
  deriving DecidableEq, Repr

/-- Moves the model does not have. No operation of the unit ends in one. -/
inductive Refusal where
  /-- Raised by an arm of exec whose instruction has no meaning yet: none is left. Safe. -/
  | notModelled (mnemonic : String)
  /-- Raised when the host presents a request, or starts a run, while a transaction is outstanding (U8: "the model has
  no such move"). A step never raises it. Safe: the model stops. -/
  | requestWhileOutstanding
  /-- Raised by the host's move when the next line names a variable that no earlier line has bound, so that it forms no
  request (R38). Never raised in a run of a well-formed program. Safe: the model stops. -/
  | unboundVariable
  deriving DecidableEq, Repr

/-- The response record: a sum, since a fault response has no value fields (R31, R104). -/
inductive Response where
  /-- Status 0: the primary result, the secondary result, the overflow flag. -/
  | ok (r r2 : Value) (ovf : Bool)
  /-- A fault, and nothing but its code. -/
  | fault (code : Fault)
  deriving DecidableEq, Repr

/-- What has become of the host's program run (R105, R121). -/
inductive RunStatus where
  /-- No run has been started. -/
  | noRun
  /-- The run is under way. -/
  | running
  /-- Every line was answered OK. -/
  | final
  /-- A response was a fault: the run ended there. -/
  | faulted (code : Fault)
  /-- `Reset` discarded its outstanding transaction: neither final nor faulted. -/
  | cutOff
  deriving DecidableEq, Repr

/-- The machine. INVENTORY.md lists each field with the rule that names it. -/
structure State where
  /-- The reset input: the host has asserted `Reset` and the unit has not yet taken it (R112, R120). -/
  resetAsserted : Bool
  /-- The transaction that is outstanding: accepted and not yet answered (R24). -/
  outstanding : Option Request
  /-- The response record; it holds no value until the first response after `Reset` (R19, R31). -/
  response : Option Response
  /-- The host's program: the lines it has not issued yet, first to last (R38, D30). -/
  program : List Line
  /-- The requests of the run that the unit has accepted, oldest first (R24, R100); a request of the host's own is among
  them (notes/assumptions/17.md and 18.md). -/
  issued : List Request
  /-- The responses of the run, oldest first; the host's variables are their fields (R24, R38); the response to a request
  of the host's own is among them (notes/assumptions/17.md and 18.md). -/
  answered : List Response
  /-- The outcome of the run so far (R105). -/
  run : RunStatus
  deriving DecidableEq, Repr

/-- The machine right after `Reset`: no transaction is outstanding and the response record holds no value (R120, R19);
the host has no run under way. -/
def State.reset : State :=
  { resetAsserted := false
    outstanding := none
    response := none
    program := []
    issued := []
    answered := []
    run := .noRun }

end Sys2Proof.Machine
end

