-- ==== Sys2Proof/Machine/Operands.lean ====
section
/-!
DEFINITION. Every operand form the spec has: a Value's halves, limbs and bytes (spec/00_scope.md R5), an operand formed
from two halves or from one 64-bit quantity (spec/40_storage.md R40, R41), the shift amount (spec/45_shift.md R81), and
the host's operands of a program line (spec/30_encoding.md R38).
-/
namespace Sys2Proof

/-- `v.high = v[127:64]` (R10). -/
def Value.high (v : Value) : Half :=
  v.extractLsb' 64 64

/-- `v.low = v[63:0]` (R10). -/
def Value.low (v : Value) : Half :=
  v.extractLsb' 0 64

/-- `{H, L} = H * 2^64 + L` (R40). -/
def Value.ofHalves (h l : Half) : Value :=
  h ++ l

/-- A 64-bit quantity presented as an operand: `(0, n)` (R41). -/
def Value.ofHalf (n : Half) : Value :=
  Value.ofHalves 0#64 n

/-- `limb_k(v) = v[32k+31:32k]` (R5, R53). -/
def Value.limb (v : Value) (k : Nat) : Limb :=
  v.extractLsb' (32 * k) 32

/-- `byte_i(v) = v[8i+7:8i]` (R5, R21). -/
def Value.byte (v : Value) (i : Nat) : Byte :=
  v.extractLsb' (8 * i) 8

/-- The effective shift amount `w = b[6:0]`, between 0 and 127 (R81, under the masked policy of R80). -/
def shiftAmount (b : Value) : Nat :=
  match Config.shiftPolicy with
  | .masked => (b.extractLsb' 0 7).toNat

namespace Machine

/-- What an OK response binds to one of a line's outputs; a fault response has no value fields (R104). The flag as an
operand is its zero-extension (DEDUCED, notes/assumptions/6.md). -/
def Response.output (rsp : Response) (f : ResultField) : Option Value :=
  match rsp with
  | .ok r r2 ovf =>
    match f with
    | .r => some r
    | .r2 => some r2
    | .ovf => some ((BitVec.ofBool ovf).setWidth 128)
  | .fault _ => none

/-- The value of a line's operand, given the responses so far (R38): variable `k` is an output of the response `k` of
the run, which is line `k`'s where every request of the run is a line's. DESIGN CHOICE (notes/assumptions/17.md): a request
of the host's own in the run (R112) is counted with the lines. -/
def operandValue (answered : List Response) : Operand → Option Value
  | .lit v => some v
  | .result k f =>
    match answered[k]? with
    | some rsp => rsp.output f
    | none => none

/-- The request a line forms, if its operands are bound (R38). -/
def lineRequest (answered : List Response) (l : Line) : Option Request :=
  match operandValue answered l.a, operandValue answered l.b with
  | some a, some b => some ⟨l.opc, a, b⟩
  | _, _ => none

end Machine

end Sys2Proof
end

