-- ==== Sys2Proof/Machine/Flags.lean ====
section
/-!
DEFINITION. The flag computations of the unit: the carry and the borrow of a 64-bit half step, from which the overflow
flag of addition and subtraction is made (spec/41_add_sub.md R46, R49), and a verdict returned as a value
(spec/46_compare.md R88). The overflow flag of the multiplier is made in Sys2Proof/Machine/Multiply.lean from its own
product classes. The flag is transient: it is a field of the response and no state (spec/10_state.md R17).
-/
namespace Sys2Proof.Machine

/-- One 64-bit addition with its carry-out: the exact sum, its low 64 bits and its bit 64 (R46). -/
def addHalf (x y : Half) : Half × Bool :=
  let t := x.toNat + y.toNat
  (BitVec.ofNat 64 t, decide (t >>> 64 = 1))

/-- One 64-bit subtraction with its borrow (R49). -/
def subHalf (x y : Half) : Half × Bool :=
  (BitVec.ofNat 64 (x.toNat + 2 ^ 64 - y.toNat), decide (x.toNat < y.toNat))

/-- A carry or borrow as the 64-bit quantity 0 or 1 that the next half step adds or takes (R46, R49). -/
def carryIn (c : Bool) : Half :=
  (BitVec.ofBool c).setWidth 64

/-- `zext_128(bool(c))`: a verdict returned as a value, not in a flag (R88, R89). -/
def verdict (c : Bool) : Value :=
  (BitVec.ofBool c).setWidth 128

end Sys2Proof.Machine
end

