-- ==== Sys2Proof/Machine/Ops.lean ====
section
/-!
DEFINITION. The named operations over the state. Of the unit: delivering a response, raising a fault (the spec's "trap
entry", spec/60_exceptions.md R104; there is no return from a fault, R107), accepting a request (spec/20_memory.md R24)
and taking `Reset` (spec/70_reset_and_hazards.md R120, R121). Of the host: its next move in a program run
(spec/60_exceptions.md R105), and the moves that come from outside a step, starting a run and asserting `Reset` (R112).
-/
namespace Sys2Proof.Machine

/-- What a machine's move answers. -/
abbrev Answer := Host.Outcome State Fault Refusal

/-! ## The unit -/

/-- What a response makes of the run it belongs to: a fault ends the run at that transaction (R105), whatever the outcome
was before (DEDUCED, notes/assumptions/7.md). DESIGN CHOICE (notes/assumptions/18.md): an OK response to a request issued
with no run under way (R112) leaves the outcome as it was, where R105 says nothing. -/
def runAfter (run : RunStatus) : Response → RunStatus
  | .ok _ _ _ => run
  | .fault c => .faulted c

/-- The response to the outstanding transaction is delivered: the response record takes it, the unit is ready for the
next request, and the host has one more response (R24, R104). DESIGN CHOICE: the response joins those of the run also
where its request was no line of the run under way (notes/assumptions/17.md), or where no run is under way
(notes/assumptions/18.md). -/
def State.deliver (rsp : Response) (s : State) : State :=
  { s with
    outstanding := none
    response := some rsp
    answered := s.answered ++ [rsp]
    run := runAfter s.run rsp }

/-- `rsp <- OK(r, r2, ovf)` (R6). -/
def respondOk (r r2 : Value) (ovf : Bool) (s : State) : Answer :=
  .next (s.deliver (.ok r r2 ovf))

/-- `raise <Fault>` (R6, R104): the response is the fault and has no value fields; nothing is saved, no mode changes and
control goes nowhere, and the unit is ready for the next request. -/
def raiseFault (c : Fault) (s : State) : Answer :=
  .next (s.deliver (.fault c))

/-- The step of an illegal opcode (R32, R101): IllegalOp, whatever the operands are. -/
def execIllegal (s : State) : Answer :=
  raiseFault .illegalOp s

/-- A request is accepted only when no transaction is outstanding (R24); otherwise there is no such move (U8). It is the
next line of the run, or any request of the host's own (R112). What the spec leaves open of the latter is a DESIGN
CHOICE: between two lines of a run under way it counts as a transaction of that run and shifts the variables of later
lines (notes/assumptions/17.md); with no run under way it joins the records the run before has left
(notes/assumptions/18.md); and while `Reset` stands asserted it is accepted, and the step that takes `Reset` discards it
(notes/assumptions/19.md). -/
def State.accept (req : Request) (s : State) : Answer :=
  match s.outstanding with
  | none => .next { s with outstanding := some req, issued := s.issued ++ [req] }
  | some _ => .refused .requestWhileOutstanding

/-- What `Reset` makes of the run: one whose transaction it discards is cut off, neither final nor faulted (R121); one
with no transaction outstanding is none of the unit's state and stays (DEDUCED, notes/assumptions/5.md). DESIGN CHOICE
(notes/assumptions/16.md): where the discarded transaction belongs to no run under way (the host may issue any request,
R112, also after a run has ended or with none started), R121 says nothing, and the outcome becomes cut off too. -/
def runAfterReset (outstanding : Option Request) (run : RunStatus) : RunStatus :=
  match outstanding with
  | some _ => .cutOff
  | none => run

/-- `Reset` is taken: no transaction is outstanding, one that was gets no response, and the response record holds no
value (R120, R121). -/
def State.takeReset (s : State) : State :=
  { s with
    resetAsserted := false
    outstanding := none
    response := none
    run := runAfterReset s.outstanding s.run }

/-! ## The host -/

/-- The host's move when the unit is idle: in a run, it issues the next line, or finds that there is none and the run is
final; outside a run it does nothing (R8, R105, R110). -/
def State.hostMove (s : State) : Answer :=
  match s.run with
  | .running =>
    match s.program with
    | [] => .next { s with run := .final }
    | l :: rest =>
      match lineRequest s.answered l with
      | some req => State.accept req { s with program := rest }
      | none => .refused .unboundVariable
  | .noRun | .final | .faulted _ | .cutOff => .next s

/-- The host starts a run of the program `p`, independent of any run before it (R105, R107). DESIGN CHOICE: a run still
under way is abandoned (notes/assumptions/20.md), and a run may be started while `Reset` stands asserted
(notes/assumptions/19.md). -/
def State.startRun (p : List Line) (s : State) : Answer :=
  match s.outstanding with
  | none => .next { s with program := p, issued := [], answered := [], run := .running }
  | some _ => .refused .requestWhileOutstanding

/-- The host asserts `Reset`, which it may do at any time (R112, R120); it stays asserted until the next step takes it
(DESIGN CHOICE, notes/assumptions/12.md), and what the host presents meanwhile is notes/assumptions/19.md. -/
def State.assertReset (s : State) : State :=
  { s with resetAsserted := true }

end Sys2Proof.Machine
end

