-- ==== Sys2Proof/Machine/AddSub.lean ====
section
/-!
DEFINITION. Addition and subtraction (spec/41_add_sub.md): the primitives `add128` and `sub128` built from 64-bit half
steps, and ADD, ADD.T, SUB, SUB.T over them.
-/
namespace Sys2Proof.Machine

/-- The primitive `add128` (R46): the low halves with their carry, the high halves, then the carry into high; overflow
iff the high addition or the carry's own addition overflowed. -/
def add128 (a b : Value) : Value × Bool :=
  let (lo, c) := addHalf a.low b.low
  let (h1, o1) := addHalf a.high b.high
  let (hi, o2) := addHalf h1 (carryIn c)
  (Value.ofHalves hi lo, o1 || o2)

/-- The primitive `sub128` (R49): the mirror of `add128` with a borrow. -/
def sub128 (a b : Value) : Value × Bool :=
  let (lo, br) := subHalf a.low b.low
  let (h1, o1) := subHalf a.high b.high
  let (hi, o2) := subHalf h1 (carryIn br)
  (Value.ofHalves hi lo, o1 || o2)

/-- ADD, reporting (R45). -/
def execAdd (a b : Value) (s : State) : Answer :=
  let (sum, o) := add128 a b
  respondOk sum 0#128 o s

/-- ADD.T, trapping (R47). -/
def execAddT (a b : Value) (s : State) : Answer :=
  let (sum, o) := add128 a b
  if o then raiseFault .overflow s else respondOk sum 0#128 false s

/-- SUB, reporting (R48). -/
def execSub (a b : Value) (s : State) : Answer :=
  let (diff, o) := sub128 a b
  respondOk diff 0#128 o s

/-- SUB.T, trapping; underflow reports Overflow too (R50). -/
def execSubT (a b : Value) (s : State) : Answer :=
  let (diff, o) := sub128 a b
  if o then raiseFault .overflow s else respondOk diff 0#128 false s

end Sys2Proof.Machine
end

