-- ==== Sys2Proof/Machine/Bitwise.lean ====
section
/-!
DEFINITION. Bitwise logic and byte reversal (spec/44_bitwise.md): AND, OR, XOR, NOT applied to each half on its own,
and BSWAP.
-/
namespace Sys2Proof.Machine

/-- AND, halfwise (R73). -/
def execAnd (a b : Value) (s : State) : Answer :=
  respondOk (Value.ofHalves (a.high &&& b.high) (a.low &&& b.low)) 0#128 false s

/-- OR, halfwise (R74). -/
def execOr (a b : Value) (s : State) : Answer :=
  respondOk (Value.ofHalves (a.high ||| b.high) (a.low ||| b.low)) 0#128 false s

/-- XOR, halfwise (R75). -/
def execXor (a b : Value) (s : State) : Answer :=
  respondOk (Value.ofHalves (a.high ^^^ b.high) (a.low ^^^ b.low)) 0#128 false s

/-- NOT, halfwise; `b` is ignored (R76). -/
def execNot (a _b : Value) (s : State) : Answer :=
  respondOk (Value.ofHalves (~~~a.high) (~~~a.low)) 0#128 false s

/-- The value whose byte `i` is byte `15 - i` of `a` for each `i < n`, and 0 above: the loop of R77 after `n` turns. -/
def swapBytes (a : Value) : Nat → Value
  | 0 => 0#128
  | n + 1 => swapBytes a n ||| ((a.byte (15 - n)).setWidth 128 <<< (8 * n))

/-- BSWAP: `byte_i(r) = byte_(15-i)(a)`; `b` is ignored (R77). -/
def execBswap (a _b : Value) (s : State) : Answer :=
  respondOk (swapBytes a 16) 0#128 false s

end Sys2Proof.Machine
end

