-- ==== Sys2Proof/Machine/Compare.lean ====
section
/-!
DEFINITION. The comparison tree (spec/46_compare.md): equality of both halves, and the lexicographic order on
(high, low), as CMPEQ and CMPLT and as the tests the divider uses.
-/
namespace Sys2Proof.Machine

/-- Equality iff both halves are equal (R88). -/
def valueEq (a b : Value) : Bool :=
  decide (a.high = b.high) && decide (a.low = b.low)

/-- `a < b` iff `a.high < b.high`, or the high halves are equal and `a.low < b.low`, all unsigned (R89). -/
def valueLt (a b : Value) : Bool :=
  decide (a.high.toNat < b.high.toNat) || (decide (a.high = b.high) && decide (a.low.toNat < b.low.toNat))

/-- CMPEQ: the verdict is returned as a value (R88). -/
def execCmpeq (a b : Value) (s : State) : Answer :=
  respondOk (verdict (valueEq a b)) 0#128 false s

/-- CMPLT: the verdict is returned as a value (R89). -/
def execCmplt (a b : Value) (s : State) : Answer :=
  respondOk (verdict (valueLt a b)) 0#128 false s

end Sys2Proof.Machine
end

