-- ==== Sys2Proof/Machine/Shift.lean ====
section
/-!
DEFINITION. The barrel shifter (spec/45_shift.md): the four cases of a left and of a right shift on two halves, and
SHL, SHR with the amount reduced modulo 128.
-/
namespace Sys2Proof.Machine

/-- A logical left shift by `w` with 0 <= w <= 127, by the four cases (R82, R84). -/
def shiftLeft128 (a : Value) (w : Nat) : Value :=
  let h := a.high
  let l := a.low
  if w = 0 then Value.ofHalves h l
  else if w ≤ 63 then Value.ofHalves ((h <<< w) ||| (l >>> (64 - w))) (l <<< w)
  else if w = 64 then Value.ofHalves l 0#64
  else Value.ofHalves (l <<< (w - 64)) 0#64

/-- A logical right shift by `w` with 0 <= w <= 127, by the four cases (R83, R84). -/
def shiftRight128 (a : Value) (w : Nat) : Value :=
  let h := a.high
  let l := a.low
  if w = 0 then Value.ofHalves h l
  else if w ≤ 63 then Value.ofHalves (h >>> w) ((l >>> w) ||| (h <<< (64 - w)))
  else if w = 64 then Value.ofHalves 0#64 h
  else Value.ofHalves 0#64 (h >>> (w - 64))

/-- SHL (R82). -/
def execShl (a b : Value) (s : State) : Answer :=
  respondOk (shiftLeft128 a (shiftAmount b)) 0#128 false s

/-- SHR (R83). -/
def execShr (a b : Value) (s : State) : Answer :=
  respondOk (shiftRight128 a (shiftAmount b)) 0#128 false s

end Sys2Proof.Machine
end

