-- ==== Sys2Proof/Machine/Storage.lean ====
section
/-!
DEFINITION. The significant-bit count (spec/40_storage.md): the function `sigbits` (R42), which the divider uses, and
the operation SIGB (R43).
-/
namespace Sys2Proof.Machine

/-- One more than the highest set bit among the `n` lowest bits of `v`, or 0 if none of them is set. -/
def sigbitsBelow (v : Value) : Nat → Nat
  | 0 => 0
  | n + 1 => if v.getLsbD n then n + 1 else sigbitsBelow v n

/-- `sigbits(v)`: 0 for zero, otherwise the position of the highest set bit plus one (R42). -/
def sigbits (v : Value) : Nat :=
  sigbitsBelow v 128

/-- SIGB; `b` is ignored (R43). -/
def execSigb (a _b : Value) (s : State) : Answer :=
  respondOk (BitVec.ofNat 128 (sigbits a)) 0#128 false s

end Sys2Proof.Machine
end

