-- ==== Sys2Proof/Machine/Divide.lean ====
section
/-!
DEFINITION. Division and modulus (spec/43_divide.md): the fast paths and the shift-and-subtract loop of the primitive
`divrem128` (R64 to R66), and DIVREM, DIV, REM over it. The running remainder, the quotient, the shifted divisor and
the shifted adder are working quantities of one transaction and no state (spec/10_state.md R18).
-/
namespace Sys2Proof.Machine

/-- The loop of the general case (R66): while `rem >= d`, subtract the shifted divisor if it goes and add the shifted
adder to the quotient, then shift both right by one if the remainder's bit count has dropped to the shifted divisor's.
The fuel bounds the iterations; R70 says that `s + 1` are enough. -/
def divideLoop (d : Value) : (fuel : Nat) → (rem q sd ad : Value) → Value × Value
  | 0, rem, q, _, _ => (q, rem)
  | fuel + 1, rem, q, sd, ad =>
    if valueLt rem d then (q, rem)
    else
      let goes := !valueLt rem sd
      let rem' := if goes then (sub128 rem sd).1 else rem
      let q' := if goes then (add128 q ad).1 else q
      if sigbits rem' ≤ sigbits sd then
        divideLoop d fuel rem' q' (shiftRight128 sd 1) (shiftRight128 ad 1)
      else
        divideLoop d fuel rem' q' sd ad

/-- The general case, for `a > d >= 2` (R65): the divisor and a 1 are shifted left by the difference in bit counts of
dividend and divisor (spec/90_conflicts.md C2). -/
def divideGeneral (a d : Value) : Value × Value :=
  let shift := sigbits a - sigbits d
  divideLoop d (shift + 1) a 0#128 (shiftLeft128 d shift) (shiftLeft128 1#128 shift)

/-- The primitive `divrem128` for a nonzero divisor: the fast paths in the source's order, then the general case
(R64). -/
def divrem128 (a d : Value) : Value × Value :=
  if valueEq d 1#128 then (a, 0#128)
  else if valueEq a d then (1#128, 0#128)
  else if valueEq a 0#128 then (0#128, 0#128)
  else if valueLt a d then (0#128, a)
  else divideGeneral a d

/-- DIVREM: a zero divisor raises DivideByZero before any fast path is tried (R63, R67). -/
def execDivrem (a b : Value) (s : State) : Answer :=
  if valueEq b 0#128 then raiseFault .divideByZero s
  else
    let (q, rem) := divrem128 a b
    respondOk q rem false s

/-- DIV: the quotient only (R68). -/
def execDiv (a b : Value) (s : State) : Answer :=
  if valueEq b 0#128 then raiseFault .divideByZero s
  else
    let (q, _) := divrem128 a b
    respondOk q 0#128 false s

/-- REM: the remainder only, delivered in `r` (R69). -/
def execRem (a b : Value) (s : State) : Answer :=
  if valueEq b 0#128 then raiseFault .divideByZero s
  else
    let (_, rem) := divrem128 a b
    respondOk rem 0#128 false s

end Sys2Proof.Machine
end

