-- ==== Sys2Proof/Machine/Multiply.lean ====
section
/-!
DEFINITION. Multiplication (spec/42_multiply.md): the schoolbook multiplier over four 32-bit limbs per operand with its
table-driven overflow classification (R53 to R58), and MUL, MUL.T over it. The limb arrays and segments are working
quantities of one transaction and no state (spec/10_state.md R18).
-/
namespace Sys2Proof.Machine

/-- The classes of a limb product by its position pair (R55). -/
inductive ProductClass where
  /-- "must be zero", else overflow; never accumulated. -/
  | mustBeZero
  /-- "must fit in 32 bits", else overflow; its low 32 bits are accumulated. -/
  | mustFit32
  /-- "contributes to result": accumulated whole, no check. -/
  | contributes
  deriving DecidableEq, Repr

/-- The classification of the product of limb `i` of `a` and limb `j` of `b`, by the position `k = i + j` (R55). -/
def classify (i j : Nat) : ProductClass :=
  if i + j ≤ 2 then .contributes
  else if i + j = 3 then .mustFit32
  else .mustBeZero

/-- The 16 limb-position pairs, row by row. -/
def limbPairs : List (Nat × Nat) :=
  [(0, 0), (0, 1), (0, 2), (0, 3)] ++ [(1, 0), (1, 1), (1, 2), (1, 3)] ++
  [(2, 0), (2, 1), (2, 2), (2, 3)] ++ [(3, 0), (3, 1), (3, 2), (3, 3)]

/-- The product `P[i][j]` of two limbs, held in a 64-bit quantity (R53, R54). -/
def limbProduct (a b : Value) (i j : Nat) : Half :=
  (a.limb i).setWidth 64 * (b.limb j).setWidth 64

/-- The low 32 bits `x[31:0]` of a 64-bit quantity, held in 64 bits (R56). -/
def low32 (x : Half) : Half :=
  (x.extractLsb' 0 32).setWidth 64

/-- The high 32 bits `x[63:32]` of a 64-bit quantity, held in 64 bits (R56). -/
def high32 (x : Half) : Half :=
  (x.extractLsb' 32 32).setWidth 64

/-- The four 64-bit result segments `S[0..3]` (R56). -/
structure Segments where
  /-- `S[0]`, of weight 1. -/
  s0 : Half
  /-- `S[1]`, of weight 2^32. -/
  s1 : Half
  /-- `S[2]`, of weight 2^64. -/
  s2 : Half
  /-- `S[3]`, of weight 2^96. -/
  s3 : Half
  deriving DecidableEq, Repr

/-- `S[k] += x` (R56). -/
def addToSegment (k : Nat) (x : Half) (S : Segments) : Segments :=
  match k with
  | 0 => { S with s0 := S.s0 + x }
  | 1 => { S with s1 := S.s1 + x }
  | 2 => { S with s2 := S.s2 + x }
  | _ => { S with s3 := S.s3 + x }

/-- What one product adds to the segments, by its class (R55, R56). -/
def accumulateProduct (a b : Value) (S : Segments) (p : Nat × Nat) : Segments :=
  let x := limbProduct a b p.1 p.2
  match classify p.1 p.2 with
  | .contributes => addToSegment (p.1 + p.2 + 1) (high32 x) (addToSegment (p.1 + p.2) (low32 x) S)
  | .mustFit32 => addToSegment 3 (low32 x) S
  | .mustBeZero => S

/-- The segments after every product is in, before carries move (R56). -/
def accumulate (a b : Value) : Segments :=
  limbPairs.foldl (accumulateProduct a b) ⟨0#64, 0#64, 0#64, 0#64⟩

/-- The carry propagation between segments, for k = 0, 1, 2 in this order (R56). -/
def propagate (S : Segments) : Segments :=
  let s1 := S.s1 + (S.s0 >>> 32)
  let s2 := S.s2 + (s1 >>> 32)
  let s3 := S.s3 + (s2 >>> 32)
  ⟨low32 S.s0, low32 s1, low32 s2, s3⟩

/-- `top`: "the final top segment exceeds 32 bits" (R56). -/
def topExceeds (S : Segments) : Bool :=
  decide (2 ^ 32 ≤ S.s3.toNat)

/-- A product violates its class: a must-be-zero product is nonzero or a must-fit product exceeds 32 bits (R55). -/
def violatesClass (a b : Value) (p : Nat × Nat) : Bool :=
  let x := limbProduct a b p.1 p.2
  match classify p.1 p.2 with
  | .contributes => false
  | .mustFit32 => decide (2 ^ 32 ≤ x.toNat)
  | .mustBeZero => decide (x ≠ 0#64)

/-- The 128-bit product from the masked segments, "via shifted adds" (R58). -/
def combine (S : Segments) : Value :=
  S.s0.setWidth 128 + (S.s1.setWidth 128 <<< 32) + (S.s2.setWidth 128 <<< 64) + ((low32 S.s3).setWidth 128 <<< 96)

/-- The primitive `mul128` (R58). -/
def mul128 (a b : Value) : Value × Bool :=
  let S := propagate (accumulate a b)
  (combine S, limbPairs.any (violatesClass a b) || topExceeds S)

/-- MUL, reporting (R57). -/
def execMul (a b : Value) (s : State) : Answer :=
  let (p, o) := mul128 a b
  respondOk p 0#128 o s

/-- MUL.T, trapping (R59). -/
def execMulT (a b : Value) (s : State) : Answer :=
  let (p, o) := mul128 a b
  if o then raiseFault .overflow s else respondOk p 0#128 false s

end Sys2Proof.Machine
end

