-- ==== Sys2Proof/Machine/Dispatch.lean ====
section
/-!
DEFINITION. `exec_m(a, b)` of spec/30_encoding.md R32: one arm per operation of the opcode map, each a call of its
meaning.
-/
namespace Sys2Proof.Machine

/-- The step of a decoded request (R32). -/
def exec (i : Instr) (s : State) : Host.Outcome State Fault Refusal :=
  match i with
  | .add a b => Sys2Proof.Machine.execAdd a b s
  | .sub a b => Sys2Proof.Machine.execSub a b s
  | .mul a b => Sys2Proof.Machine.execMul a b s
  | .div a b => Sys2Proof.Machine.execDiv a b s
  | .rem a b => Sys2Proof.Machine.execRem a b s
  | .divrem a b => Sys2Proof.Machine.execDivrem a b s
  | .and a b => Sys2Proof.Machine.execAnd a b s
  | .or a b => Sys2Proof.Machine.execOr a b s
  | .xor a b => Sys2Proof.Machine.execXor a b s
  | .not a b => Sys2Proof.Machine.execNot a b s
  | .shl a b => Sys2Proof.Machine.execShl a b s
  | .shr a b => Sys2Proof.Machine.execShr a b s
  | .bswap a b => Sys2Proof.Machine.execBswap a b s
  | .sigb a b => Sys2Proof.Machine.execSigb a b s
  | .cmpeq a b => Sys2Proof.Machine.execCmpeq a b s
  | .cmplt a b => Sys2Proof.Machine.execCmplt a b s
  | .addT a b => Sys2Proof.Machine.execAddT a b s
  | .subT a b => Sys2Proof.Machine.execSubT a b s
  | .mulT a b => Sys2Proof.Machine.execMulT a b s

end Sys2Proof.Machine
end

