-- ==== Sys2Proof/Machine/Step.lean ====
section
/-!
DEFINITION. One step of the machine. `Reset`, if asserted, is taken first (spec/70_reset_and_hazards.md R120: at any
time); otherwise an outstanding transaction is answered (spec/30_encoding.md R32); otherwise the host moves
(spec/60_exceptions.md R105). A transaction takes two steps, its acceptance and its response, so that `Reset` can fall
between them (R121); a step is no unit of time (R126).
-/
namespace Sys2Proof.Machine

/-- The unit's step for an accepted request: decode, then the operation's own meaning (R32, R106). -/
def answerRequest (req : Request) (s : State) : Answer :=
  match decode req with
  | .ok i => exec i s
  | .error _ => execIllegal s

/-- One step. It is total and never stops with a fault: a fault is a response (R104, R125). -/
def step (s : State) : Host.Outcome State Fault Refusal :=
  if s.resetAsserted then .next s.takeReset
  else
    match s.outstanding with
    | some req => answerRequest req s
    | none => s.hostMove

/-- `s` with the instruction of an opcode-table row as its outstanding transaction, so that the next step answers it:
the unit fetches nothing (R13), and a request is where an instruction stands. -/
def State.withFetchWord (s : State) (nbits w : Nat) : State :=
  { s with resetAsserted := false, outstanding := some (Request.ofTable nbits w) }

end Sys2Proof.Machine
end

