-- ==== Sys2Proof/Machine/Response.lean ====
section
/-!
DEFINITION. The encoding of the response record (spec/30_encoding.md R31): the status codes (spec/60_exceptions.md
R100), the record's fields, and the 261-bit word of an OK response.
-/
namespace Sys2Proof.Machine

/-- The status code of a fault (R100). -/
def faultStatus : Fault → BitVec 4
  | .illegalOp => 1#4
  | .divideByZero => 2#4
  | .overflow => 3#4

/-- The `status` field of a response: 0 is OK, and 4 to 15 are never produced (R31, R100). -/
def Response.status : Response → BitVec 4
  | .ok _ _ _ => 0#4
  | .fault c => faultStatus c

/-- The response record with its fields; a field without a value is absent, never 0 (R31, R104, U3). -/
structure ResponseRecord where
  /-- The status code. -/
  status : BitVec 4
  /-- The overflow flag, absent in a fault response. -/
  ovf : Option (BitVec 1)
  /-- The primary result, absent in a fault response. -/
  r : Option Value
  /-- The secondary result, absent in a fault response. -/
  r2 : Option Value
  deriving DecidableEq, Repr

/-- The fields of a response (R31). -/
def Response.record (rsp : Response) : ResponseRecord :=
  match rsp with
  | .ok r r2 ovf => ⟨rsp.status, some (BitVec.ofBool ovf), some r, some r2⟩
  | .fault _ => ⟨rsp.status, none, none, none⟩

/-- The response word `rsp[260:0]`: `status` at `[260:257]`, `ovf` at `[256]`, `r` at `[255:128]`, `r2` at `[127:0]`
(R31). Only an OK response has one, since a fault gives no value to the other fields. -/
def Response.toWord (rsp : Response) : Option (BitVec 261) :=
  match rsp with
  | .ok r r2 ovf => some (rsp.status ++ BitVec.ofBool ovf ++ r ++ r2)
  | .fault _ => none

/-- The fault a host reads from a status code: none for OK, and none for 4 to 15, which no rule produces (R100, U4). -/
def faultOfStatus (status : BitVec 4) : Option Fault :=
  match status with
  | 1#4 => some .illegalOp
  | 2#4 => some .divideByZero
  | 3#4 => some .overflow
  | _ => none

end Sys2Proof.Machine
end

