-- ==== Sys2Proof/Safety.lean ====
section
/-!
DEFINITION. What counts as a right answer and a sound run, in the terms the claims use: the closed form the spec gives
for each operation's response, the invariant of the machine, the number of steps a run has left, and what a whole run
answers. Nothing of the machine is defined from this file.
-/
namespace Sys2Proof.Safety

open Sys2Proof.Machine

/-! ## The response of each operation in closed form -/

/-- The response `(v, 0, 0)`: most operations produce `r` alone, and a field that is not produced is 0 (R33). -/
def onlyR (v : Value) : Response :=
  .ok v 0#128 false

/-- The response of a reporting operation from its exact result and its overflow condition. -/
def reporting (exact : Int) (overflows : Bool) : Response :=
  .ok (BitVec.ofInt 128 exact) 0#128 overflows

/-- The response of a trapping operation: Overflow when the reporting one would set the flag (R34). -/
def trapping (exact : Int) (overflows : Bool) : Response :=
  if overflows then .fault .overflow else onlyR (BitVec.ofInt 128 exact)

/-- The response of a division: DivideByZero for a zero divisor (R102). -/
def dividing (b : Value) (rsp : Response) : Response :=
  if b = 0#128 then .fault .divideByZero else rsp

/-- The response of each operation on integers and bits, with no carry, limb, segment, loop or half in it: the closed
forms of R46, R49, R58, R71, R73 to R77, R82, R83, R88, R89 and R42. -/
def closedForm : Instr → Response
  | .add a b => reporting (a.toNat + b.toNat) (decide (2 ^ 128 ≤ a.toNat + b.toNat))
  | .sub a b => reporting (a.toNat - b.toNat) (decide (a.toNat < b.toNat))
  | .mul a b => reporting (a.toNat * b.toNat) (decide (2 ^ 128 ≤ a.toNat * b.toNat))
  | .div a b => dividing b (onlyR (BitVec.ofNat 128 (a.toNat / b.toNat)))
  | .rem a b => dividing b (onlyR (BitVec.ofNat 128 (a.toNat % b.toNat)))
  | .divrem a b =>
    dividing b (.ok (BitVec.ofNat 128 (a.toNat / b.toNat)) (BitVec.ofNat 128 (a.toNat % b.toNat)) false)
  | .and a b => onlyR (a &&& b)
  | .or a b => onlyR (a ||| b)
  | .xor a b => onlyR (a ^^^ b)
  | .not a _ => onlyR (~~~a)
  | .shl a b => onlyR (BitVec.ofNat 128 (a.toNat * 2 ^ (b.toNat % 128)))
  | .shr a b => onlyR (BitVec.ofNat 128 (a.toNat / 2 ^ (b.toNat % 128)))
  | .bswap a _ => onlyR (BitVec.ofFnLE fun i : Fin 128 => a.getLsbD (8 * (15 - i.val / 8) + i.val % 8))
  | .sigb a _ => onlyR (if a = 0#128 then 0#128 else BitVec.ofNat 128 (a.toNat.log2 + 1))
  | .cmpeq a b => onlyR (if a = b then 1#128 else 0#128)
  | .cmplt a b => onlyR (if a.toNat < b.toNat then 1#128 else 0#128)
  | .addT a b => trapping (a.toNat + b.toNat) (decide (2 ^ 128 ≤ a.toNat + b.toNat))
  | .subT a b => trapping (a.toNat - b.toNat) (decide (a.toNat < b.toNat))
  | .mulT a b => trapping (a.toNat * b.toNat) (decide (2 ^ 128 ≤ a.toNat * b.toNat))

/-- The response to a request, as a function of the request alone (R25, R32). -/
def answerOf (req : Request) : Response :=
  match decode req with
  | .ok i => closedForm i
  | .error _ => .fault .illegalOp

/-! ## The invariant -/

/-- A response that is no fault. -/
def isOk : Response → Bool
  | .ok _ _ _ => true
  | .fault _ => false

/-- What each outcome of a run says of its responses (R105, R121). -/
def OutcomeSound (s : State) : Prop :=
  match s.run with
  | .noRun => s.issued = [] ∧ s.answered = []
  | .running => s.answered.all isOk = true
  | .final => s.answered.all isOk = true ∧ s.program = []
  | .faulted c => ∃ before : List Response, s.answered = before ++ [.fault c] ∧ before.all isOk = true
  | .cutOff => s.answered.all isOk = true ∧ s.issued.length = s.answered.length + 1

/-- The invariant of the machine. -/
structure Inv (s : State) : Prop where
  /-- The k-th response answers the k-th request, and is a function of that request alone (R24, R25). -/
  inOrder : s.answered = (s.issued.take s.answered.length).map answerOf
  /-- A transaction that is outstanding belongs to a run under way and is the last request accepted (R24). -/
  outstandingIsLast : ∀ req, s.outstanding = some req →
    s.run = .running ∧ s.issued = s.issued.take s.answered.length ++ [req]
  /-- With no transaction outstanding every request has its response, unless `Reset` discarded the last (R121). -/
  allAnswered : s.outstanding = none → s.run ≠ .cutOff → s.issued.length = s.answered.length
  /-- The outcome of the run is what its responses say (R105). -/
  outcomeSound : OutcomeSound s
  /-- The lines still to issue name only variables that are bound by then (R38). -/
  linesBound : s.run = .running → programBound s.issued.length s.program = true

/-! ## Runs -/

/-- The steps a run under way has left at most: two for each line not yet issued, one for an outstanding transaction,
and one to find that there is no further line. -/
def stepsLeft (s : State) : Nat :=
  match s.run with
  | .running =>
    match s.outstanding with
    | some _ => 2 * s.program.length + 2
    | none => 2 * s.program.length + 1
  | .noRun | .final | .faulted _ | .cutOff => 0

/-- The responses of a whole run of a program, after the responses `done`: line by line, up to the first fault
(R105). -/
def runAnswers : List Line → List Response → List Response
  | [], done => done
  | l :: rest, done =>
    match lineRequest done l with
    | none => done
    | some req =>
      match answerOf req with
      | .ok r r2 ovf => runAnswers rest (done ++ [.ok r r2 ovf])
      | .fault c => done ++ [.fault c]

/-- The outcome of a run with these responses: faulted if the last one is a fault, otherwise final (R105). -/
def outcomeOf (answers : List Response) : RunStatus :=
  match answers.getLast? with
  | some (.fault c) => .faulted c
  | some (.ok _ _ _) | none => .final

end Sys2Proof.Safety
end

