-- ==== Sys2Proof/Certificates/Slice0/Obligations.lean ====
section
/-!
DEFINITION. The statements for the provers, from the numbered rules of spec/. A next state is written
`s.deliver rsp`: the response record takes `rsp`, the unit is ready, the host's list of responses has `rsp` at its end,
and the run is what the response makes of it. OperationsWriteOnlyTheirResponse says field by field what that leaves
unchanged.
-/
open Sys2Proof Sys2Proof.Machine Sys2Proof.Safety

/-! ## The step, the transaction and the frame -/

/-- R32. The step of the unit for an accepted request, nothing being added around exec: IllegalOp for an opcode that
decodes to nothing, otherwise the meaning of the decoded operation. -/
def Obligations.StepAnswersTheDecodedRequest : Prop :=
  ∀ (s : State) (req : Request), s.resetAsserted = false → s.outstanding = some req →
    (∀ i, decode req = .ok i → step s = exec i s) ∧
    (∀ e, decode req = .error e → step s = .next (s.deliver (.fault .illegalOp)))

/-- R25. The response to a request is a function of that request alone, whatever came before and whatever else the
state holds; every accepted request gets one. -/
def Obligations.ResponseDependsOnTheRequestAlone : Prop :=
  ∃ f : Request → Response, ∀ (s : State) (req : Request),
    s.resetAsserted = false → s.outstanding = some req → step s = .next (s.deliver (f req))

/-- R11. The frame of all 19 operations, each of which completes from every state with every operand: it reads only its
operands (one response for every state), writes that response, and leaves everything else the state holds unchanged.
What R11 does not say: that a fault response makes the run faulted is R105, and that it does so whatever the run was
before is the model's own choice (notes/assumptions/7.md), as it is that an OK response leaves every outcome as it was
(notes/assumptions/18.md); the host's records, the list of responses that grows among them, are the model's own
(notes/assumptions/3.md, 17.md and 18.md). -/
def Obligations.OperationsWriteOnlyTheirResponse : Prop :=
  ∀ i : Instr, ∃ rsp : Response, ∀ s : State, ∃ t : State, exec i s = .next t ∧
    t.response = some rsp ∧ t.answered = s.answered ++ [rsp] ∧ t.outstanding = none ∧
    t.resetAsserted = s.resetAsserted ∧ t.program = s.program ∧ t.issued = s.issued ∧
    (isOk rsp = true → t.run = s.run) ∧ (∀ c, rsp = .fault c → t.run = .faulted c)

/-- R24. A request is accepted exactly when no transaction is outstanding, and while one is outstanding a step accepts
no other: it answers it, or `Reset` discards it. The model's own choices in it: every accepted request joins the host's
record of issued requests, whether a line of a run under way, a request between two lines, or a lone one
(notes/assumptions/3.md, 17.md and 18.md), and one is accepted also while `Reset` stands asserted
(notes/assumptions/19.md). -/
def Obligations.OneTransactionAtATime : Prop :=
  (∀ (s : State) (req : Request),
    ((∃ t, State.accept req s = .next t) ↔ s.outstanding = none) ∧
    (∀ t, State.accept req s = .next t → t = { s with outstanding := some req, issued := s.issued ++ [req] })) ∧
  (∀ (s t : State) (req : Request), s.outstanding = some req → step s = .next t →
    t.outstanding = none ∧ t.issued = s.issued ∧ t.program = s.program ∧
    (s.resetAsserted = false → ∃ rsp, t.response = some rsp ∧ t.answered = s.answered ++ [rsp]))

/-! ## Encoding -/

/-- R30. The fields of the request word, both ways. -/
def Obligations.RequestWordFields : Prop :=
  (∀ w : BitVec 264, (Request.ofWord w).toWord = w ∧
    (∀ i, i < 8 → (Request.ofWord w).opc.getLsbD i = w.getLsbD (256 + i)) ∧
    (∀ i, i < 64 → (Request.ofWord w).a.high.getLsbD i = w.getLsbD (192 + i)) ∧
    (∀ i, i < 64 → (Request.ofWord w).a.low.getLsbD i = w.getLsbD (128 + i)) ∧
    (∀ i, i < 64 → (Request.ofWord w).b.high.getLsbD i = w.getLsbD (64 + i)) ∧
    (∀ i, i < 64 → (Request.ofWord w).b.low.getLsbD i = w.getLsbD i)) ∧
  (∀ req : Request, Request.ofWord req.toWord = req)

/-- R31. The response record and its word: an OK response has status 0 and its fields in their places, and a fault
response has its status and no value in any other field. -/
def Obligations.ResponseWordFields : Prop :=
  (∀ (r r2 : Value) (ovf : Bool), ∃ w : BitVec 261, (Response.ok r r2 ovf).toWord = some w ∧
    w.extractLsb' 257 4 = 0#4 ∧ w.extractLsb' 256 1 = BitVec.ofBool ovf ∧
    w.extractLsb' 128 128 = r ∧ w.extractLsb' 0 128 = r2 ∧
    (Response.ok r r2 ovf).record = ⟨0#4, some (BitVec.ofBool ovf), some r, some r2⟩) ∧
  (∀ c : Fault, (Response.fault c).toWord = none ∧ (Response.fault c).record = ⟨faultStatus c, none, none, none⟩)

/-- R100. Status 0 is OK, 1, 2, 3 are the three faults, 4 to 15 are never produced and name no fault. -/
def Obligations.StatusCodes : Prop :=
  (∀ rsp : Response, rsp.status.toNat ≤ 3 ∧ (rsp.status = 0#4 ↔ isOk rsp = true)) ∧
  (∀ (c : Fault) (st : BitVec 4), faultOfStatus st = some c ↔ (Response.fault c).status = st) ∧
  faultStatus .illegalOp = 1#4 ∧ faultStatus .divideByZero = 2#4 ∧ faultStatus .overflow = 3#4

/-- The 264-bit words of the instructions and the instructions are in one-to-one correspondence: decoding a word gives
an instruction exactly when encoding the instruction gives the word, at every value of both operands. -/
def Obligations.DecodeAndEncodeAgree : Prop :=
  ∀ (w : BitVec 264) (i : Instr), decodeWord w = .ok i ↔ encodeWord i = w

/-- R33. One word of each family, written out from the encoding, decodes to the instruction it stands for. -/
def Obligations.SpecWordsDecode : Prop :=
  decodeWord 0x010000000000000000FFFFFFFFFFFFFFFF00000000000000000000000000000001#264 =
    .ok (.add 0xFFFFFFFFFFFFFFFF#128 1#128) ∧
  decodeWord 0x230000000000000000000000000000000300000000000000000000000000000004#264 = .ok (.mulT 3#128 4#128) ∧
  decodeWord 0x060000000000000000000000000000006400000000000000000000000000000007#264 = .ok (.divrem 100#128 7#128) ∧
  decodeWord 0x0B000000000000000000000000000000FF00000000000000000000000000000000#264 = .ok (.not 0xFF#128 0#128) ∧
  decodeWord 0x0C0123456789ABCDEFFEDCBA98765432100000000000000000000000000000007F#264 =
    .ok (.shl 0x0123456789ABCDEFFEDCBA9876543210#128 0x7F#128) ∧
  decodeWord 0x110000000000000005000000000000000300000000000000050000000000000004#264 =
    .ok (.cmplt 0x00000000000000050000000000000003#128 0x00000000000000050000000000000004#128) ∧
  decodeWord 0x0F0000000000000000000000000000000100000000000000000000000000000000#264 = .ok (.sigb 1#128 0#128)

/-- R34. The fields of a legal opcode byte, and the two variants of one function: they compute the same result and
overflow bit, and differ only in what happens when that bit is 1. -/
def Obligations.TrappingVariantsMirrorReporting : Prop :=
  (∀ (req : Request) (i : Instr), decode req = .ok i → opcUpper req.opc = 0#2 ∧
    (opcTrapping req.opc = true →
      opcFunction req.opc = 1#5 ∨ opcFunction req.opc = 2#5 ∨ opcFunction req.opc = 3#5)) ∧
  (∀ a b : Value,
    (encode (.addT a b)).opc = (encode (.add a b)).opc ||| 0x20#8 ∧
    (encode (.subT a b)).opc = (encode (.sub a b)).opc ||| 0x20#8 ∧
    (encode (.mulT a b)).opc = (encode (.mul a b)).opc ||| 0x20#8) ∧
  (∀ (a b : Value) (s : State),
    (∃ r o, exec (.add a b) s = .next (s.deliver (.ok r 0#128 o)) ∧
      exec (.addT a b) s = .next (s.deliver (if o then .fault .overflow else .ok r 0#128 false))) ∧
    (∃ r o, exec (.sub a b) s = .next (s.deliver (.ok r 0#128 o)) ∧
      exec (.subT a b) s = .next (s.deliver (if o then .fault .overflow else .ok r 0#128 false))) ∧
    (∃ r o, exec (.mul a b) s = .next (s.deliver (.ok r 0#128 o)) ∧
      exec (.mulT a b) s = .next (s.deliver (if o then .fault .overflow else .ok r 0#128 false))))

/-- R36. The 237 illegal opcode bytes, by the ranges the rule lists. -/
def Obligations.IllegalOpcodeRanges : Prop :=
  ∀ req : Request, (∃ e, decode req = .error e) ↔
    (req.opc = 0x00#8 ∨ req.opc = 0x07#8 ∨ (0x12 ≤ req.opc.toNat ∧ req.opc.toNat ≤ 0x20) ∨
      (0x24 ≤ req.opc.toNat ∧ req.opc.toNat ≤ 0x3F) ∨ 0x40 ≤ req.opc.toNat)

/-- R36, R81. The only ignored bits of a request: NOT, BSWAP and SIGB complete the same way for every `b`, and SHL and
SHR for every two amounts with the same low 7 bits. -/
def Obligations.IgnoredOperandBits : Prop :=
  ∀ (a b b' : Value) (s : State),
    exec (.not a b) s = exec (.not a b') s ∧
    exec (.bswap a b) s = exec (.bswap a b') s ∧
    exec (.sigb a b) s = exec (.sigb a b') s ∧
    (b.extractLsb' 0 7 = b'.extractLsb' 0 7 →
      exec (.shl a b) s = exec (.shl a b') s ∧ exec (.shr a b) s = exec (.shr a b') s)

/-- R39. The pseudo-operation CMPGT, as an instruction and as a line of a program, answers whether `a > b`. -/
def Obligations.CmpgtIsCmpltExchanged : Prop :=
  (∀ (a b : Value) (s : State),
    exec (cmpgt a b) s = .next (s.deliver (.ok (if b.toNat < a.toNat then 1#128 else 0#128) 0#128 false))) ∧
  (∀ (answered : List Response) (a b : Operand) (x y : Value),
    operandValue answered a = some x → operandValue answered b = some y →
      lineRequest answered (Line.cmpgt a b) = some (encode (cmpgt x y)))

/-! ## Addition and subtraction -/

/-- R45. ADD. -/
def Obligations.AddReturnsWrappedSumAndOverflow : Prop :=
  ∀ (a b : Value) (s : State), decode ⟨0x01#8, a, b⟩ = .ok (.add a b) ∧
    exec (.add a b) s = .next (s.deliver (.ok (BitVec.ofNat 128 (a.toNat + b.toNat)) 0#128
      (decide (2 ^ 128 ≤ a.toNat + b.toNat))))

/-- R46. The three 64-bit additions of `add128`, and what they come to. -/
def Obligations.AddPrimitiveIsThreeHalfAdditions : Prop :=
  ∀ a b : Value, ∃ lo h1 hi : Half, ∃ c o1 o2 : Bool,
    a.low.toNat + b.low.toNat = lo.toNat + 2 ^ 64 * c.toNat ∧
    a.high.toNat + b.high.toNat = h1.toNat + 2 ^ 64 * o1.toNat ∧
    h1.toNat + c.toNat = hi.toNat + 2 ^ 64 * o2.toNat ∧
    add128 a b = (Value.ofHalves hi lo, o1 || o2) ∧
    (o1 && o2) = false ∧
    (add128 a b).1.toNat = (a.toNat + b.toNat) % 2 ^ 128 ∧
    ((add128 a b).2 = true ↔ 2 ^ 128 ≤ a.toNat + b.toNat)

/-- R47. ADD.T: OK where the sum fits, Overflow where it does not. -/
def Obligations.AddTrappingFaultsOnOverflow : Prop :=
  ∀ (a b : Value) (s : State), decode ⟨0x21#8, a, b⟩ = .ok (.addT a b) ∧
    (a.toNat + b.toNat < 2 ^ 128 →
      exec (.addT a b) s = .next (s.deliver (.ok (BitVec.ofNat 128 (a.toNat + b.toNat)) 0#128 false))) ∧
    (2 ^ 128 ≤ a.toNat + b.toNat → exec (.addT a b) s = .next (s.deliver (.fault .overflow)))

/-- R48. SUB. That the wrapped difference is the value of `r` beside `ovf = 1` is not forced by the source: it is the spec's
own decision D17, which the model follows (notes/assumptions/9.md). -/
def Obligations.SubReturnsWrappedDifferenceAndBorrow : Prop :=
  ∀ (a b : Value) (s : State), decode ⟨0x02#8, a, b⟩ = .ok (.sub a b) ∧
    exec (.sub a b) s = .next (s.deliver (.ok (BitVec.ofNat 128 (a.toNat + 2 ^ 128 - b.toNat)) 0#128
      (decide (a.toNat < b.toNat))))

/-- R49. The three 64-bit subtractions of `sub128`, and what they come to. The step form is the spec's own reading of
"mirror of addition", and that the result is (a - b) mod 2^128 also where a < b is the spec's own decision D17; the model
follows both (notes/assumptions/9.md). -/
def Obligations.SubPrimitiveIsThreeHalfSubtractions : Prop :=
  ∀ a b : Value, ∃ lo h1 hi : Half, ∃ br o1 o2 : Bool,
    lo.toNat + b.low.toNat = a.low.toNat + 2 ^ 64 * br.toNat ∧
    h1.toNat + b.high.toNat = a.high.toNat + 2 ^ 64 * o1.toNat ∧
    hi.toNat + br.toNat = h1.toNat + 2 ^ 64 * o2.toNat ∧
    (o2 = true ↔ br = true ∧ h1 = 0#64) ∧
    sub128 a b = (Value.ofHalves hi lo, o1 || o2) ∧
    (o1 && o2) = false ∧
    (sub128 a b).1.toNat = (a.toNat + 2 ^ 128 - b.toNat) % 2 ^ 128 ∧
    ((sub128 a b).2 = true ↔ a.toNat < b.toNat)

/-- R50. SUB.T: OK where there is no borrow, Overflow where there is. -/
def Obligations.SubTrappingFaultsOnUnderflow : Prop :=
  ∀ (a b : Value) (s : State), decode ⟨0x22#8, a, b⟩ = .ok (.subT a b) ∧
    (b.toNat ≤ a.toNat →
      exec (.subT a b) s = .next (s.deliver (.ok (BitVec.ofNat 128 (a.toNat - b.toNat)) 0#128 false))) ∧
    (a.toNat < b.toNat → exec (.subT a b) s = .next (s.deliver (.fault .overflow)))

/-- R51. The five laws of addition and subtraction. Law (3) uses the value of SUB's `r` beside `ovf = 1`, which is the
spec's own decision D17 (notes/assumptions/9.md). -/
def Obligations.AdditionAndSubtractionLaws : Prop :=
  ∀ (a b : Value) (s : State), ∃ (r d : Value) (o u : Bool),
    exec (.add a b) s = .next (s.deliver (.ok r 0#128 o)) ∧
    exec (.add b a) s = .next (s.deliver (.ok r 0#128 o)) ∧
    exec (.sub a a) s = .next (s.deliver (.ok 0#128 0#128 false)) ∧
    exec (.sub r b) s = .next (s.deliver (.ok a 0#128 o)) ∧
    (o = true ↔ Config.maxValue.toNat - a.toNat < b.toNat) ∧
    (o = true ↔ ∃ n, exec (.not a 0#128) s = .next (s.deliver (.ok n 0#128 false)) ∧
      exec (.cmplt n b) s = .next (s.deliver (.ok 1#128 0#128 false))) ∧
    exec (.sub a b) s = .next (s.deliver (.ok d 0#128 u)) ∧
    (exec (.addT a b) s = .next (s.deliver (.ok r 0#128 false)) ↔ o = false) ∧
    (exec (.subT a b) s = .next (s.deliver (.ok d 0#128 false)) ↔ u = false) ∧
    ((∃ x y z, exec (.addT a b) s = .next (s.deliver (.ok x y z))) ↔ o = false) ∧
    ((∃ x y z, exec (.subT a b) s = .next (s.deliver (.ok x y z))) ↔ u = false)

/-- R41, R52. Two zero-extended 64-bit operands: the exact 65-bit sum, the exact 128-bit product, no overflow; and the
difference overflows exactly when the low halves do. -/
def Obligations.ZeroExtendedHalvesAreExact : Prop :=
  ∀ (m n : Half) (s : State),
    (∃ r, exec (.add (Value.ofHalf m) (Value.ofHalf n)) s = .next (s.deliver (.ok r 0#128 false)) ∧
      r.toNat = m.toNat + n.toNat ∧ (r.high = 0#64 ∨ r.high = 1#64)) ∧
    (∃ r, exec (.mul (Value.ofHalf m) (Value.ofHalf n)) s = .next (s.deliver (.ok r 0#128 false)) ∧
      r.toNat = m.toNat * n.toNat) ∧
    (∃ r, exec (.sub (Value.ofHalf m) (Value.ofHalf n)) s =
      .next (s.deliver (.ok r 0#128 (decide (m.toNat < n.toNat)))))

/-! ## Multiplication -/

/-- R54. Each of the 16 products is exact, and their sum by weight is the true product. -/
def Obligations.LimbProductsSumToTheProduct : Prop :=
  ∀ a b : Value,
    (∀ i j : Nat, (limbProduct a b i j).toNat = (a.limb i).toNat * (b.limb j).toNat) ∧
    a.toNat * b.toNat =
      (limbPairs.map fun p => (limbProduct a b p.1 p.2).toNat * 2 ^ (32 * (p.1 + p.2))).sum

/-- R56. No segment ever wraps: each stays below 2^35, and the propagation of carries keeps the number the four
segments hold while bringing the lower three below 2^32. -/
def Obligations.SegmentsNeverWrap : Prop :=
  ∀ a b : Value,
    let S := accumulate a b
    let T := propagate S
    S.s0.toNat < 2 ^ 35 ∧ S.s1.toNat < 2 ^ 35 ∧ S.s2.toNat < 2 ^ 35 ∧ S.s3.toNat < 2 ^ 35 ∧
    T.s0.toNat < 2 ^ 32 ∧ T.s1.toNat < 2 ^ 32 ∧ T.s2.toNat < 2 ^ 32 ∧ T.s3.toNat < 2 ^ 35 ∧
    T.s0.toNat + T.s1.toNat * 2 ^ 32 + T.s2.toNat * 2 ^ 64 + T.s3.toNat * 2 ^ 96 =
      S.s0.toNat + S.s1.toNat * 2 ^ 32 + S.s2.toNat * 2 ^ 64 + S.s3.toNat * 2 ^ 96

/-- R60. The limb multiplier with its table-driven overflow classification equals the 256-bit product: the result is its
low 128 bits, with or without overflow, and the overflow bit says that its upper 128 bits are not zero. The value of the
result beside an overflow is the spec's own decision D17, which the model follows (notes/assumptions/9.md). -/
def Obligations.LimbMultiplierEqualsFullProduct : Prop :=
  ∀ a b : Value, (mul128 a b).1.toNat = a.toNat * b.toNat % 2 ^ 128 ∧
    ((mul128 a b).2 = true ↔ a.toNat * b.toNat / 2 ^ 128 ≠ 0)

/-- R57. MUL. That the low 128 bits of the product are the value of `r` beside `ovf = 1` is not forced by the source: it is
the spec's own decision D17, which the model follows, and U2 would let it be free (notes/assumptions/9.md). -/
def Obligations.MulReturnsLowProductAndOverflow : Prop :=
  ∀ (a b : Value) (s : State), decode ⟨0x03#8, a, b⟩ = .ok (.mul a b) ∧
    exec (.mul a b) s = .next (s.deliver (.ok (BitVec.ofNat 128 (a.toNat * b.toNat)) 0#128
      (decide (2 ^ 128 ≤ a.toNat * b.toNat))))

/-- R59. MUL.T: OK where the product fits, Overflow where it does not. -/
def Obligations.MulTrappingFaultsOnOverflow : Prop :=
  ∀ (a b : Value) (s : State), decode ⟨0x23#8, a, b⟩ = .ok (.mulT a b) ∧
    (a.toNat * b.toNat < 2 ^ 128 →
      exec (.mulT a b) s = .next (s.deliver (.ok (BitVec.ofNat 128 (a.toNat * b.toNat)) 0#128 false))) ∧
    (2 ^ 128 ≤ a.toNat * b.toNat → exec (.mulT a b) s = .next (s.deliver (.fault .overflow)))

/-- R61. The four laws of multiplication, the division round trip among them. -/
def Obligations.MultiplicationLaws : Prop :=
  ∀ (a b : Value) (s : State), ∃ (r : Value) (o : Bool),
    exec (.mul a b) s = .next (s.deliver (.ok r 0#128 o)) ∧
    exec (.mul b a) s = .next (s.deliver (.ok r 0#128 o)) ∧
    (sigbits a + sigbits b ≤ 128 → o = false) ∧
    (130 ≤ sigbits a + sigbits b → o = true) ∧
    (a.high = 0#64 → b.high = 0#64 → o = false ∧ r.toNat = a.toNat * b.toNat) ∧
    (b ≠ 0#128 → ∃ q m p, exec (.divrem a b) s = .next (s.deliver (.ok q m false)) ∧
      exec (.mulT q b) s = .next (s.deliver (.ok p 0#128 false)) ∧
      exec (.addT p m) s = .next (s.deliver (.ok a 0#128 false)))

/-! ## Division -/

/-- R71. Shift-and-subtract division with its fast paths is floor division. -/
def Obligations.LongDivisionIsFloorDivision : Prop :=
  ∀ a d : Value, d ≠ 0#128 →
    (divrem128 a d).1.toNat = a.toNat / d.toNat ∧ (divrem128 a d).2.toNat = a.toNat % d.toNat

/-- R65, R70. In the general case the alignment shift is between 0 and 126, the shifted divisor loses no bit, and the
loop has ended after `s + 1` iterations: more of them change nothing. -/
def Obligations.DivisionLoopEndsWithinBound : Prop :=
  ∀ (a d : Value) (more : Nat), 2 ≤ d.toNat → d.toNat < a.toNat →
    let shift := sigbits a - sigbits d
    sigbits d ≤ sigbits a ∧ shift ≤ 126 ∧
    (shiftLeft128 d shift).toNat = d.toNat * 2 ^ shift ∧ sigbits (shiftLeft128 d shift) = sigbits a ∧
    divideLoop d (shift + 1 + more) a 0#128 (shiftLeft128 d shift) (shiftLeft128 1#128 shift) = divideGeneral a d ∧
    (divideGeneral a d).2.toNat < d.toNat

/-- R67. DIVREM. -/
def Obligations.DivremReturnsQuotientAndRemainder : Prop :=
  ∀ (a b : Value) (s : State), decode ⟨0x06#8, a, b⟩ = .ok (.divrem a b) ∧
    (b ≠ 0#128 → exec (.divrem a b) s = .next (s.deliver
      (.ok (BitVec.ofNat 128 (a.toNat / b.toNat)) (BitVec.ofNat 128 (a.toNat % b.toNat)) false))) ∧
    (b = 0#128 → exec (.divrem a b) s = .next (s.deliver (.fault .divideByZero)))

/-- R68. DIV. -/
def Obligations.DivReturnsQuotient : Prop :=
  ∀ (a b : Value) (s : State), decode ⟨0x04#8, a, b⟩ = .ok (.div a b) ∧
    (b ≠ 0#128 → exec (.div a b) s = .next (s.deliver
      (.ok (BitVec.ofNat 128 (a.toNat / b.toNat)) 0#128 false))) ∧
    (b = 0#128 → exec (.div a b) s = .next (s.deliver (.fault .divideByZero)))

/-- R69. REM. -/
def Obligations.RemReturnsRemainder : Prop :=
  ∀ (a b : Value) (s : State), decode ⟨0x05#8, a, b⟩ = .ok (.rem a b) ∧
    (b ≠ 0#128 → exec (.rem a b) s = .next (s.deliver
      (.ok (BitVec.ofNat 128 (a.toNat % b.toNat)) 0#128 false))) ∧
    (b = 0#128 → exec (.rem a b) s = .next (s.deliver (.fault .divideByZero)))

/-! ## Bitwise logic, byte reversal, shifts -/

/-- R73 to R76. The logic operations, halfwise in the unit, act on each of the 128 bit positions. -/
def Obligations.LogicActsOnEachBit : Prop :=
  ∀ (a b : Value) (s : State),
    decode ⟨0x08#8, a, b⟩ = .ok (.and a b) ∧ decode ⟨0x09#8, a, b⟩ = .ok (.or a b) ∧
    decode ⟨0x0A#8, a, b⟩ = .ok (.xor a b) ∧ decode ⟨0x0B#8, a, b⟩ = .ok (.not a b) ∧
    (∃ r, exec (.and a b) s = .next (s.deliver (.ok r 0#128 false)) ∧
      ∀ i, i < 128 → r.getLsbD i = (a.getLsbD i && b.getLsbD i)) ∧
    (∃ r, exec (.or a b) s = .next (s.deliver (.ok r 0#128 false)) ∧
      ∀ i, i < 128 → r.getLsbD i = (a.getLsbD i || b.getLsbD i)) ∧
    (∃ r, exec (.xor a b) s = .next (s.deliver (.ok r 0#128 false)) ∧
      ∀ i, i < 128 → r.getLsbD i = (a.getLsbD i ^^ b.getLsbD i)) ∧
    (∃ r, exec (.not a b) s = .next (s.deliver (.ok r 0#128 false)) ∧
      (∀ i, i < 128 → r.getLsbD i = !a.getLsbD i) ∧ r.toNat = Config.maxValue.toNat - a.toNat)

/-- R77. BSWAP reverses the 16 bytes, and doing it twice gives the value back. -/
def Obligations.BswapReversesBytes : Prop :=
  ∀ (a b b' : Value) (s t : State), decode ⟨0x0E#8, a, b⟩ = .ok (.bswap a b) ∧
    ∃ r, exec (.bswap a b) s = .next (s.deliver (.ok r 0#128 false)) ∧
      (∀ i, i < 16 → r.byte i = a.byte (15 - i)) ∧
      (∀ i, i < 8 → r.high.extractLsb' (8 * i) 8 = a.low.extractLsb' (8 * (7 - i)) 8 ∧
        r.low.extractLsb' (8 * i) 8 = a.high.extractLsb' (8 * (7 - i)) 8) ∧
      exec (.bswap r b') t = .next (t.deliver (.ok a 0#128 false))

/-- R82, R84. SHL: the four cases on halves, and the one closed form. -/
def Obligations.ShlMultipliesByPowerOfTwo : Prop :=
  ∀ (a b : Value) (s : State), decode ⟨0x0C#8, a, b⟩ = .ok (.shl a b) ∧
    ∃ r, exec (.shl a b) s = .next (s.deliver (.ok r 0#128 false)) ∧
      r.toNat = a.toNat * 2 ^ (b.toNat % 128) % 2 ^ 128 ∧
      (∀ w, w = (b.extractLsb' 0 7).toNat →
        w = b.toNat % 128 ∧
        (w = 0 → r = a) ∧
        (1 ≤ w → w ≤ 63 → r.high = (a.high <<< w) ||| (a.low >>> (64 - w)) ∧ r.low = a.low <<< w) ∧
        (w = 64 → r.high = a.low ∧ r.low = 0#64) ∧
        (65 ≤ w → r.high = a.low <<< (w - 64) ∧ r.low = 0#64))

/-- R83, R84. SHR: the four cases on halves, and the one closed form. -/
def Obligations.ShrDividesByPowerOfTwo : Prop :=
  ∀ (a b : Value) (s : State), decode ⟨0x0D#8, a, b⟩ = .ok (.shr a b) ∧
    ∃ r, exec (.shr a b) s = .next (s.deliver (.ok r 0#128 false)) ∧
      r.toNat = a.toNat / 2 ^ (b.toNat % 128) ∧
      (∀ w, w = (b.extractLsb' 0 7).toNat →
        w = b.toNat % 128 ∧
        (w = 0 → r = a) ∧
        (1 ≤ w → w ≤ 63 → r.high = a.high >>> w ∧ r.low = (a.low >>> w) ||| (a.high <<< (64 - w))) ∧
        (w = 64 → r.high = 0#64 ∧ r.low = a.high) ∧
        (65 ≤ w → r.high = 0#64 ∧ r.low = a.high >>> (w - 64)))

/-- R85. The five laws of the shifter. -/
def Obligations.ShiftLaws : Prop :=
  (∀ (a b b' : Value) (s : State), b.toNat % 128 = b'.toNat % 128 →
    exec (.shl a b) s = exec (.shl a b') s ∧ exec (.shr a b) s = exec (.shr a b') s) ∧
  (∀ (a : Value) (w : Nat), w ≤ 127 →
    (shiftRight128 (shiftLeft128 a w) w).toNat = a.toNat % 2 ^ (128 - w) ∧
    (shiftLeft128 (shiftRight128 a w) w).toNat = a.toNat - a.toNat % 2 ^ w) ∧
  (∀ (a : Value) (s : State),
    (∃ r, exec (.shl a 64#128) s = .next (s.deliver (.ok r 0#128 false)) ∧
      exec (.shl r 64#128) s = .next (s.deliver (.ok 0#128 0#128 false))) ∧
    exec (.shl a 128#128) s = .next (s.deliver (.ok a 0#128 false))) ∧
  (∀ (a : Value) (s : State), ∃ r, exec (.shl a 1#128) s = .next (s.deliver (.ok r 0#128 false)) ∧
    exec (.add a a) s = .next (s.deliver (.ok r 0#128 (a.getLsbD 127)))) ∧
  (∀ (a : Value) (w : Nat), w ≤ 127 → sigbits (shiftRight128 a w) = sigbits a - w)

/-! ## Comparison and the significant-bit count -/

/-- R88. CMPEQ: the verdict is a value, and equality of the halves is equality of the values. -/
def Obligations.CmpeqReturnsVerdict : Prop :=
  ∀ (a b : Value) (s : State), decode ⟨0x10#8, a, b⟩ = .ok (.cmpeq a b) ∧
    exec (.cmpeq a b) s = .next (s.deliver (.ok (if a = b then 1#128 else 0#128) 0#128 false)) ∧
    (a = b ↔ a.high = b.high ∧ a.low = b.low)

/-- R89. CMPLT: the verdict is a value, and the lexicographic order is unsigned numeric order. -/
def Obligations.CmpltReturnsVerdict : Prop :=
  ∀ (a b : Value) (s : State), decode ⟨0x11#8, a, b⟩ = .ok (.cmplt a b) ∧
    exec (.cmplt a b) s = .next (s.deliver (.ok (if a.toNat < b.toNat then 1#128 else 0#128) 0#128 false)) ∧
    (a.toNat < b.toNat ↔ a.high.toNat < b.high.toNat ∨ (a.high = b.high ∧ a.low.toNat < b.low.toNat))

/-- R90. The order of the comparison tree is total and is numeric order. -/
def Obligations.ComparisonOrderIsTotalAndNumeric : Prop :=
  ∀ a b c : Value,
    ((valueLt a b = true ∧ a ≠ b ∧ valueLt b a = false) ∨
      (valueLt a b = false ∧ a = b ∧ valueLt b a = false) ∨
      (valueLt a b = false ∧ a ≠ b ∧ valueLt b a = true)) ∧
    (valueLt a b = true → valueLt b c = true → valueLt a c = true) ∧
    (valueLt a b = true ↔ a.high.toNat * 2 ^ 64 + a.low.toNat < b.high.toNat * 2 ^ 64 + b.low.toNat)

/-- R91. The verdicts and the other operations: CMPLT is the overflow bit of SUB, CMPEQ is 1 exactly when XOR gives 0,
and `<=` and `>=` are what the host derives from the two verdicts. -/
def Obligations.ComparisonLinks : Prop :=
  ∀ (a b : Value) (s : State), ∃ (lt eq gt d x : Value) (u : Bool),
    exec (.cmplt a b) s = .next (s.deliver (.ok lt 0#128 false)) ∧
    exec (.cmpeq a b) s = .next (s.deliver (.ok eq 0#128 false)) ∧
    exec (.cmplt b a) s = .next (s.deliver (.ok gt 0#128 false)) ∧
    exec (.sub a b) s = .next (s.deliver (.ok d 0#128 u)) ∧
    exec (.xor a b) s = .next (s.deliver (.ok x 0#128 false)) ∧
    lt.toNat = u.toNat ∧ (eq = 1#128 ↔ x = 0#128) ∧
    (gt = 1#128 ↔ b.toNat < a.toNat) ∧
    (a ≠ b ↔ 1#128 - eq = 1#128) ∧
    (a.toNat ≤ b.toNat ↔ lt ||| eq = 1#128) ∧ (a.toNat ≤ b.toNat ↔ 1#128 - gt = 1#128) ∧
    (b.toNat ≤ a.toNat ↔ 1#128 - lt = 1#128)

/-- R42. `sigbits` is one more than the highest set bit, the least width that holds the value, and follows from the
halves. -/
def Obligations.SigbitsIsLeastWidth : Prop :=
  ∀ v : Value,
    (v = 0#128 → sigbits v = 0) ∧
    (v ≠ 0#128 → 1 ≤ sigbits v ∧ v.getLsbD (sigbits v - 1) = true) ∧
    (∀ i, sigbits v ≤ i → v.getLsbD i = false) ∧
    sigbits v ≤ 128 ∧
    (∀ n, v.toNat < 2 ^ n ↔ sigbits v ≤ n) ∧
    sigbits v =
      (if v.high ≠ 0#64 then 64 + sigbits (Value.ofHalf v.high) else sigbits (Value.ofHalf v.low))

/-- R43. SIGB. -/
def Obligations.SigbReturnsSignificantBits : Prop :=
  ∀ (a b : Value) (s : State), decode ⟨0x0F#8, a, b⟩ = .ok (.sigb a b) ∧
    ∃ r, exec (.sigb a b) s = .next (s.deliver (.ok r 0#128 false)) ∧
      r.toNat = sigbits a ∧ r.high = 0#64 ∧ r.low.toNat ≤ 128 ∧
      (∀ n, a.toNat < 2 ^ n ↔ r.toNat ≤ n)

/-- R124. The same value on both ports. R124 says of MUL only "square with its overflow bit": that `r` is the square modulo
2^128 also beside `ovf = 1` is the spec's own decision D17 (notes/assumptions/9.md). -/
def Obligations.SameValueOnBothPorts : Prop :=
  ∀ (a : Value) (s : State),
    exec (.add a a) s = .next (s.deliver (.ok (BitVec.ofNat 128 (2 * a.toNat)) 0#128 (a.getLsbD 127))) ∧
    exec (.sub a a) s = .next (s.deliver (.ok 0#128 0#128 false)) ∧
    exec (.mul a a) s = .next (s.deliver (.ok (BitVec.ofNat 128 (a.toNat ^ 2)) 0#128
      (decide (2 ^ 128 ≤ a.toNat ^ 2)))) ∧
    (a ≠ 0#128 → exec (.divrem a a) s = .next (s.deliver (.ok 1#128 0#128 false))) ∧
    (a = 0#128 → exec (.divrem a a) s = .next (s.deliver (.fault .divideByZero))) ∧
    exec (.and a a) s = .next (s.deliver (.ok a 0#128 false)) ∧
    exec (.or a a) s = .next (s.deliver (.ok a 0#128 false)) ∧
    exec (.xor a a) s = .next (s.deliver (.ok 0#128 0#128 false)) ∧
    exec (.cmpeq a a) s = .next (s.deliver (.ok 1#128 0#128 false)) ∧
    exec (.cmplt a a) s = .next (s.deliver (.ok 0#128 0#128 false)) ∧
    exec (.shl a a) s = .next (s.deliver
      (.ok (BitVec.ofNat 128 (a.toNat * 2 ^ (a.extractLsb' 0 7).toNat)) 0#128 false))

/-! ## Faults -/

/-- R101. IllegalOp is raised exactly when the opcode is illegal, and the operands are not looked at. -/
def Obligations.IllegalOpRaisedExactlyOnIllegalOpcode : Prop :=
  ∀ (s : State) (req : Request), s.resetAsserted = false → s.outstanding = some req →
    (∃ t, step s = .next t ∧ (t.response = some (.fault .illegalOp) ↔ ∃ e, decode req = .error e)) ∧
    (∀ a b : Value, (∃ e, decode req = .error e) ↔ ∃ e, decode ⟨req.opc, a, b⟩ = .error e)

/-- R102, R103. When each operation faults, and with which fault; no operation raises IllegalOp. -/
def Obligations.OperationFaultConditions : Prop :=
  ∀ (i : Instr) (s : State), ∃ t, exec i s = .next t ∧
    (t.response = some (.fault .divideByZero) ↔
      ∃ a, i = .div a 0#128 ∨ i = .rem a 0#128 ∨ i = .divrem a 0#128) ∧
    (t.response = some (.fault .overflow) ↔
      ∃ a b : Value, (i = .addT a b ∧ 2 ^ 128 ≤ a.toNat + b.toNat) ∨ (i = .subT a b ∧ a.toNat < b.toNat) ∨
        (i = .mulT a b ∧ 2 ^ 128 ≤ a.toNat * b.toNat)) ∧
    t.response ≠ some (.fault .illegalOp)

/-- R17, R33. The overflow flag is 1 only in a response of ADD, SUB or MUL, and `r2` is not 0 only in one of DIVREM. -/
def Obligations.OnlyReportingOperationsSetOverflow : Prop :=
  ∀ (i : Instr) (s : State), ∃ t, exec i s = .next t ∧
    ∀ (r r2 : Value) (ovf : Bool), t.response = some (.ok r r2 ovf) →
      (ovf = true → ∃ a b, i = .add a b ∨ i = .sub a b ∨ i = .mul a b) ∧
      (r2 ≠ 0#128 → ∃ a b, i = .divrem a b)

/-- R104. A fault is delivered as the response and nothing else: the fields without a value are absent, the rest of the
unit is as it was, and the unit is ready for the next request. What R104 does not say: that the run is then faulted is
R105, and that it is so whatever the run was before is the model's own choice (notes/assumptions/7.md); the host's records,
the lists of requests and responses among them, are the model's own (notes/assumptions/3.md, 17.md and 18.md). -/
def Obligations.FaultIsDeliveredAsResponse : Prop :=
  ∀ (s t : State) (req : Request) (c : Fault), s.resetAsserted = false → s.outstanding = some req →
    step s = .next t → t.response = some (.fault c) →
    (Response.fault c).record = ⟨faultStatus c, none, none, none⟩ ∧
    t = { s with outstanding := none, response := some (.fault c), answered := s.answered ++ [.fault c],
                 run := .faulted c } ∧
    (∀ next : Request, State.accept next t =
      .next { t with outstanding := some next, issued := t.issued ++ [next] })

/-- R105. A fault response ends the run in the faulted outcome, and a faulted run issues no further request and never
becomes final. Two clauses are the model's own choices: the fault makes the run faulted whatever it was before
(notes/assumptions/7.md), and a faulted run stays as it was also in a step that takes `Reset` with no transaction
outstanding (notes/assumptions/5.md). -/
def Obligations.FaultEndsTheRun : Prop :=
  (∀ (s t : State) (req : Request) (c : Fault), s.resetAsserted = false → s.outstanding = some req →
    step s = .next t → t.response = some (.fault c) → t.run = .faulted c) ∧
  (∀ (s : State) (c : Fault), s.run = .faulted c → s.outstanding = none →
    ∃ t, step s = .next t ∧ t.run = .faulted c ∧ t.outstanding = none ∧ t.issued = s.issued ∧
      t.answered = s.answered ∧ t.program = s.program)

/-- R105, R121. The only events that change the outcome of a run. The model's own choices in it: `Reset` leaves a run as it
was when no transaction is outstanding (notes/assumptions/5.md), and cuts off whatever the outcome was when one is
(notes/assumptions/16.md and 19.md); a fault response makes the run faulted whatever it was (notes/assumptions/7.md), and an
OK response leaves every outcome as it was (notes/assumptions/18.md); a run becomes
final in a step of its own (notes/assumptions/3.md). -/
def Obligations.RunOutcomeChangesOnlyByRule : Prop :=
  ∀ s t : State, step s = .next t → t.run ≠ s.run →
    (t.run = .cutOff ∧ s.resetAsserted = true ∧ ∃ req, s.outstanding = some req) ∨
    (∃ c, t.run = .faulted c ∧ t.response = some (.fault c) ∧ s.resetAsserted = false ∧
      ∃ req, s.outstanding = some req) ∨
    (t.run = .final ∧ s.run = .running ∧ s.program = [] ∧ s.outstanding = none ∧ s.resetAsserted = false)

/-! ## Reset and the host -/

/-- R19. After reset no transaction is outstanding, the response record holds no value, and the first request is
accepted. -/
def Obligations.ResetLeavesOnlyNoTransaction : Prop :=
  State.reset.outstanding = none ∧ State.reset.response = none ∧ State.reset.resetAsserted = false ∧
  ∀ req : Request, ∃ t, State.accept req State.reset = .next t ∧ t.outstanding = some req

/-- R120, R121. `Reset`, asserted at any time, leaves no transaction outstanding and no value in the response record; a
transaction it discards gets no response and its run is cut off; the unit is ready, and the record holds no value until
a response is delivered. The model's own choices in it: the step that takes `Reset` does nothing else, so that the host's
program, issued requests and responses stay as they were (notes/assumptions/12.md and 3.md), the outcome becomes cut off
also where the discarded transaction belonged to no run under way (notes/assumptions/16.md), and the next request joins
the host's record of issued requests whatever the outcome (notes/assumptions/17.md and 18.md). -/
def Obligations.ResetDiscardsTheTransaction : Prop :=
  (∀ s : State, ∃ t, step s.assertReset = .next t ∧
    t.outstanding = none ∧ t.response = none ∧ t.resetAsserted = false ∧
    t.answered = s.answered ∧ t.issued = s.issued ∧ t.program = s.program ∧
    (∀ req, s.outstanding = some req → t.run = .cutOff) ∧
    (∀ next : Request, State.accept next t =
      .next { t with outstanding := some next, issued := t.issued ++ [next] })) ∧
  (∀ s t : State, s.response = none → s.outstanding = none → step s = .next t → t.response = none)

/-- R38, R105. The host's moves in a run: the next line's request, with its operands read from the earlier responses,
becomes the outstanding transaction; with no line left the run is final. That the host's moves are steps of the machine is
the model's own choice (notes/assumptions/3.md), and so are what `ovf` is as an operand (notes/assumptions/6.md) and that
a variable is read from the response of its number (notes/assumptions/17.md). -/
def Obligations.HostIssuesTheNextLine : Prop :=
  ∀ s : State, s.resetAsserted = false → s.outstanding = none → s.run = .running →
    (∀ l rest a b, s.program = l :: rest → operandValue s.answered l.a = some a →
      operandValue s.answered l.b = some b →
      step s = .next { s with program := rest, outstanding := some ⟨l.opc, a, b⟩,
                              issued := s.issued ++ [⟨l.opc, a, b⟩] }) ∧
    (s.program = [] → step s = .next { s with run := .final })

/-- R104, R125. A step never stops with a fault, and it is refused in one case only: the next line of the run names a
variable that no earlier line has bound (a refusal of the model's own, notes/assumptions/10.md). -/
def Obligations.StepStopsOnlyOnUnboundVariable : Prop :=
  ∀ s : State, (∃ t, step s = .next t) ∨
    (step s = .refused .unboundVariable ∧ s.resetAsserted = false ∧ s.outstanding = none ∧ s.run = .running ∧
      ∃ l rest, s.program = l :: rest ∧ lineRequest s.answered l = none)

/-! ## Headline results -/

/-- Every operation, as the unit computes it with carries, limbs, segments, a division loop and halves, answers what its
closed form on integers and bits answers, from every state and for all operands. The closed forms of SUB and MUL beside
`ovf = 1` rest on the spec's own decision D17 (notes/assumptions/9.md). -/
def Obligations.UnitRefinesClosedForms : Prop :=
  ∀ (i : Instr) (s : State), exec i s = .next (s.deliver (closedForm i))

/-- The invariant holds right after reset, where the host's records are empty by the model's own choice
(notes/assumptions/4.md). -/
def Obligations.InvariantHoldsAtReset : Prop :=
  Inv State.reset

/-- A run of a well-formed program starts with the invariant, whatever came before (R105, R107). The model's own choices
in it: the records of the run before are cleared (notes/assumptions/15.md), a run still under way is abandoned
(notes/assumptions/20.md), and a run may be started while `Reset` stands asserted (notes/assumptions/19.md). -/
def Obligations.StartedRunHasInvariant : Prop :=
  ∀ (p : List Line) (s : State), s.outstanding = none → programWellFormed p = true →
    ∃ t, State.startRun p s = .next t ∧ Inv t ∧ t.program = p ∧ t.run = .running

/-- Every step keeps the invariant: responses answer requests in order and are functions of their requests, one
transaction is outstanding at most, and the outcome of the run is what its responses say. The host's records in it are the
model's own (notes/assumptions/3.md), what `Reset` leaves of a run rests on notes/assumptions/5.md, and the closed forms
rest on notes/assumptions/9.md. -/
def Obligations.StepKeepsInvariant : Prop :=
  ∀ s t : State, Inv s → step s = .next t → Inv t

/-- Under the invariant a run ends within two steps for each line left and at most two more, if `Reset` is not
asserted (R125). The step counts are the model's own choice: a transaction takes two steps, and a run becomes final in a
step of its own (notes/assumptions/3.md). -/
def Obligations.RunEndsWithinStepsLeft : Prop :=
  ∀ s : State, Inv s → s.resetAsserted = false →
    ∃ t : State, Sys2Proof.core.run (stepsLeft s) s = .next t ∧ t.run ≠ .running

/-- A run of any well-formed program, from any state without a transaction outstanding and without `Reset`, answers
what the closed forms answer line by line, up to the first fault, and ends final or faulted accordingly. The two steps of
a transaction and the step that makes a run final are the model's own choice (notes/assumptions/3.md), what `ovf` is as an
operand is notes/assumptions/6.md, and the closed forms rest on notes/assumptions/9.md. -/
def Obligations.RunAnswersAreTheClosedForms : Prop :=
  ∀ (p : List Line) (s : State), s.outstanding = none → s.resetAsserted = false → programWellFormed p = true →
    ∃ t u : State, State.startRun p s = .next t ∧ Sys2Proof.core.run (2 * p.length + 1) t = .next u ∧
      u.answered = runAnswers p [] ∧ u.run = outcomeOf (runAnswers p []) ∧
      u.issued.length = u.answered.length ∧ u.outstanding = none
end

