-- ==== Sys2Proof/Laws/Operands.lean ====
section
/-!
SUPPORT. A Value and its halves, and what the 64-bit half steps and the operand forms compute, as numbers.
-/
namespace Sys2Proof

theorem toNat_high (v : Value) : v.high.toNat = v.toNat / 2 ^ 64 := by
  have hv := v.isLt
  rw [Value.high, BitVec.extractLsb'_toNat, Nat.shiftRight_eq_div_pow]
  omega

theorem toNat_low (v : Value) : v.low.toNat = v.toNat % 2 ^ 64 := by
  rw [Value.low, BitVec.extractLsb'_toNat, Nat.shiftRight_zero]

theorem toNat_ofHalves (h l : Half) : (Value.ofHalves h l).toNat = h.toNat * 2 ^ 64 + l.toNat := by
  show (h ++ l).toNat = _
  rw [BitVec.toNat_append, ← Nat.shiftLeft_add_eq_or_of_lt l.isLt, Nat.shiftLeft_eq]

/-- `value = high * 2^64 + low` (R10). -/
theorem toNat_eq_halves (v : Value) : v.toNat = v.high.toNat * 2 ^ 64 + v.low.toNat := by
  rw [toNat_high, toNat_low]
  omega

@[simp] theorem high_ofHalves (h l : Half) : (Value.ofHalves h l).high = h := by
  have hl := l.isLt
  apply BitVec.eq_of_toNat_eq
  rw [toNat_high, toNat_ofHalves]
  omega

@[simp] theorem low_ofHalves (h l : Half) : (Value.ofHalves h l).low = l := by
  have hl := l.isLt
  apply BitVec.eq_of_toNat_eq
  rw [toNat_low, toNat_ofHalves]
  omega

@[simp] theorem ofHalves_high_low (v : Value) : Value.ofHalves v.high v.low = v := by
  apply BitVec.eq_of_toNat_eq
  rw [toNat_ofHalves, ← toNat_eq_halves]

/-- The shift amount is the whole of `b` modulo 128 (R81). -/
theorem shiftAmount_eq (b : Value) : shiftAmount b = b.toNat % 128 := by
  simp [shiftAmount, BitVec.extractLsb'_toNat]

namespace Machine

theorem toNat_addHalf (x y : Half) :
    (addHalf x y).1.toNat + 2 ^ 64 * (addHalf x y).2.toNat = x.toNat + y.toNat := by
  have hx := x.isLt
  have hy := y.isLt
  simp only [addHalf, BitVec.toNat_ofNat, Nat.shiftRight_eq_div_pow]
  rcases Nat.lt_or_ge (x.toNat + y.toNat) (2 ^ 64) with h | h
  · have hc : (x.toNat + y.toNat) / 2 ^ 64 = 0 := Nat.div_eq_of_lt h
    rw [hc, Nat.mod_eq_of_lt h]
    rfl
  · have hc : (x.toNat + y.toNat) / 2 ^ 64 = 1 := by omega
    rw [hc, decide_eq_true rfl]
    simp only [Bool.toNat_true]
    omega

theorem toNat_subHalf (x y : Half) :
    (subHalf x y).1.toNat + y.toNat = x.toNat + 2 ^ 64 * (subHalf x y).2.toNat := by
  have hx := x.isLt
  have hy := y.isLt
  simp only [subHalf, BitVec.toNat_ofNat]
  rcases Nat.lt_or_ge x.toNat y.toNat with h | h
  · simp [h]
    omega
  · simp [Nat.not_lt.mpr h]
    omega

theorem toNat_carryIn (c : Bool) : (carryIn c).toNat = c.toNat := by
  cases c <;> rfl

theorem toNat_verdict (c : Bool) : (verdict c).toNat = c.toNat := by
  cases c <;> rfl

end Machine

end Sys2Proof
end

