-- ==== Sys2Proof/Laws/State.lean ====
section
/-!
SUPPORT. One lemma per field for each update of the state, so that no later proof unfolds a record update.
-/
namespace Sys2Proof.Machine

section deliver
variable (rsp : Response) (s : State)
@[simp] theorem deliver_resetAsserted : (s.deliver rsp).resetAsserted = s.resetAsserted := rfl
@[simp] theorem deliver_outstanding : (s.deliver rsp).outstanding = none := rfl
@[simp] theorem deliver_response : (s.deliver rsp).response = some rsp := rfl
@[simp] theorem deliver_program : (s.deliver rsp).program = s.program := rfl
@[simp] theorem deliver_issued : (s.deliver rsp).issued = s.issued := rfl
@[simp] theorem deliver_answered : (s.deliver rsp).answered = s.answered ++ [rsp] := rfl
@[simp] theorem deliver_run : (s.deliver rsp).run = runAfter s.run rsp := rfl
end deliver

section takeReset
variable (s : State)
@[simp] theorem takeReset_resetAsserted : s.takeReset.resetAsserted = false := rfl
@[simp] theorem takeReset_outstanding : s.takeReset.outstanding = none := rfl
@[simp] theorem takeReset_response : s.takeReset.response = none := rfl
@[simp] theorem takeReset_program : s.takeReset.program = s.program := rfl
@[simp] theorem takeReset_issued : s.takeReset.issued = s.issued := rfl
@[simp] theorem takeReset_answered : s.takeReset.answered = s.answered := rfl
@[simp] theorem takeReset_run : s.takeReset.run = runAfterReset s.outstanding s.run := rfl
end takeReset

section assertReset
variable (s : State)
@[simp] theorem assertReset_resetAsserted : s.assertReset.resetAsserted = true := rfl
@[simp] theorem assertReset_outstanding : s.assertReset.outstanding = s.outstanding := rfl
@[simp] theorem assertReset_response : s.assertReset.response = s.response := rfl
@[simp] theorem assertReset_program : s.assertReset.program = s.program := rfl
@[simp] theorem assertReset_issued : s.assertReset.issued = s.issued := rfl
@[simp] theorem assertReset_answered : s.assertReset.answered = s.answered := rfl
@[simp] theorem assertReset_run : s.assertReset.run = s.run := rfl
end assertReset

section runStatus
variable (run : RunStatus) (req : Request) (r r2 : Value) (ovf : Bool) (c : Fault)
@[simp] theorem runAfter_ok : runAfter run (.ok r r2 ovf) = run := rfl
@[simp] theorem runAfter_fault : runAfter run (.fault c) = .faulted c := rfl
@[simp] theorem runAfterReset_none : runAfterReset none run = run := rfl
@[simp] theorem runAfterReset_some : runAfterReset (some req) run = .cutOff := rfl
end runStatus

/-- A response tells itself apart by what it delivers: equal next states have equal responses. -/
theorem deliver_inj {s : State} {p q : Response} : s.deliver p = s.deliver q ↔ p = q := by
  constructor
  · intro h
    simpa using congrArg State.response h
  · rintro rfl
    rfl

end Sys2Proof.Machine
end

