-- ==== Sys2Proof/Laws/Ops.lean ====
section
/-!
SUPPORT. What each shared operation and a step can do, said once: a proof about a next state takes its cases from here
instead of unfolding the operation.
-/
namespace Sys2Proof.Machine

/-- An accepted request found no transaction outstanding and is outstanding itself (R24). -/
theorem accept_next {req : Request} {s t : State} (h : State.accept req s = .next t) :
    s.outstanding = none ∧ t = { s with outstanding := some req, issued := s.issued ++ [req] } := by
  unfold State.accept at h
  split at h
  · rename_i hs
    exact ⟨hs, (Host.Outcome.next.inj h).symm⟩
  · cases h

/-- With no transaction outstanding a request is accepted. -/
theorem accept_idle {req : Request} {s : State} (h : s.outstanding = none) :
    State.accept req s = .next { s with outstanding := some req, issued := s.issued ++ [req] } := by
  simp [State.accept, h]

/-- A run that was started found no transaction outstanding, and its program and records are new (R105, R107). -/
theorem startRun_next {p : List Line} {s t : State} (h : State.startRun p s = .next t) :
    s.outstanding = none ∧ t = { s with program := p, issued := [], answered := [], run := .running } := by
  unfold State.startRun at h
  split at h
  · rename_i hs
    exact ⟨hs, (Host.Outcome.next.inj h).symm⟩
  · cases h

/-- A line's request has the line's opcode and the values of its two operands (R38). -/
theorem lineRequest_eq_some {answered : List Response} {l : Line} {req : Request} :
    lineRequest answered l = some req ↔
      req.opc = l.opc ∧ operandValue answered l.a = some req.a ∧ operandValue answered l.b = some req.b := by
  unfold lineRequest
  obtain ⟨opc, a, b⟩ := req
  cases ha : operandValue answered l.a <;> cases hb : operandValue answered l.b <;> simp [eq_comm]

/-- What the host's move can do: finish a run, issue the next line, or nothing. -/
theorem hostMove_next {s t : State} (h : s.hostMove = .next t) :
    (s.run = .running ∧ s.program = [] ∧ t = { s with run := .final }) ∨
    (∃ l rest req, s.run = .running ∧ s.program = l :: rest ∧ lineRequest s.answered l = some req ∧
      s.outstanding = none ∧
      t = { s with program := rest, outstanding := some req, issued := s.issued ++ [req] }) ∨
    (s.run ≠ .running ∧ t = s) := by
  cases hr : s.run with
  | running =>
    cases hp : s.program with
    | nil =>
      simp only [State.hostMove, hr, hp] at h
      exact .inl ⟨rfl, rfl, (Host.Outcome.next.inj h).symm⟩
    | cons l rest =>
      cases hl : lineRequest s.answered l with
      | none => simp [State.hostMove, hr, hp, hl] at h
      | some req =>
        simp only [State.hostMove, hr, hp, hl] at h
        obtain ⟨hn, ht⟩ := accept_next h
        exact .inr (.inl ⟨l, rest, req, rfl, rfl, hl, hn, ht⟩)
  | noRun | final | faulted _ | cutOff =>
    simp only [State.hostMove, hr] at h
    exact .inr (.inr ⟨by simp, (Host.Outcome.next.inj h).symm⟩)

/-- The meanings of exec all end in a delivered response, one for each operation and its operands. -/
theorem exec_delivers (i : Instr) : ∃ rsp, ∀ s, exec i s = .next (s.deliver rsp) := by
  cases i <;>
    simp only [exec, execAdd, execSub, execMul, execDiv, execRem, execDivrem, execAnd, execOr, execXor, execNot,
      execShl, execShr, execBswap, execSigb, execCmpeq, execCmplt, execAddT, execSubT, execMulT, respondOk,
      raiseFault] <;>
    first
      | exact ⟨_, fun _ => rfl⟩
      | (split <;> exact ⟨_, fun _ => rfl⟩)

/-- The unit answers every request by delivering one response. -/
theorem answerRequest_delivers (req : Request) : ∃ rsp, ∀ s, answerRequest req s = .next (s.deliver rsp) := by
  unfold answerRequest
  cases decode req with
  | ok i => exact exec_delivers i
  | error _ => exact ⟨.fault .illegalOp, fun _ => rfl⟩

/-- What a step can do: take `Reset`, answer the outstanding transaction, or let the host move. -/
theorem step_next {s t : State} (h : step s = .next t) :
    (s.resetAsserted = true ∧ t = s.takeReset) ∨
    (∃ req rsp, s.resetAsserted = false ∧ s.outstanding = some req ∧
      (∀ u, answerRequest req u = .next (u.deliver rsp)) ∧ t = s.deliver rsp) ∨
    (s.resetAsserted = false ∧ s.outstanding = none ∧ s.hostMove = .next t) := by
  cases hr : s.resetAsserted with
  | true =>
    simp only [step, hr, if_true] at h
    exact .inl ⟨rfl, (Host.Outcome.next.inj h).symm⟩
  | false =>
    cases ho : s.outstanding with
    | none =>
      simp only [step, hr, ho, Bool.false_eq_true, if_false] at h
      exact .inr (.inr ⟨rfl, rfl, h⟩)
    | some req =>
      obtain ⟨rsp, ha⟩ := answerRequest_delivers req
      simp only [step, hr, ho, Bool.false_eq_true, if_false, ha] at h
      exact .inr (.inl ⟨req, rsp, rfl, rfl, ha, (Host.Outcome.next.inj h).symm⟩)

end Sys2Proof.Machine
end

