-- ==== Sys2Proof/Laws/PerInstr.lean ====
section
/-!
SUPPORT. The family OpcodeShape, one lemma per instruction: the fields of the opcode byte the encoder writes
(spec/30_encoding.md R34). The upper bits are 00, and the T bit is set only with a function number of 1, 2 or 3.
-/
namespace Sys2Proof.Laws.OpcodeShape

/-- A byte has the shape R34 gives an opcode, and the opcode map lists it (R33). -/
abbrev OfByte (opc : Byte) : Prop :=
  opcUpper opc = 0#2 ∧ (opcTrapping opc = true → opcFunction opc ∈ [1#5, 2#5, 3#5]) ∧
  opc ∈ opcodeMap.map Prod.fst

/-- The opcode byte of an instruction's request has that shape. -/
def Statement (i : Instr) : Prop :=
  OfByte (encode i).opc

theorem add (a b : Value) : Statement (.add a b) := (by decide : OfByte 0x01#8)
theorem sub (a b : Value) : Statement (.sub a b) := (by decide : OfByte 0x02#8)
theorem mul (a b : Value) : Statement (.mul a b) := (by decide : OfByte 0x03#8)
theorem div (a b : Value) : Statement (.div a b) := (by decide : OfByte 0x04#8)
theorem rem (a b : Value) : Statement (.rem a b) := (by decide : OfByte 0x05#8)
theorem divrem (a b : Value) : Statement (.divrem a b) := (by decide : OfByte 0x06#8)
theorem and (a b : Value) : Statement (.and a b) := (by decide : OfByte 0x08#8)
theorem or (a b : Value) : Statement (.or a b) := (by decide : OfByte 0x09#8)
theorem xor (a b : Value) : Statement (.xor a b) := (by decide : OfByte 0x0A#8)
theorem not (a b : Value) : Statement (.not a b) := (by decide : OfByte 0x0B#8)
theorem shl (a b : Value) : Statement (.shl a b) := (by decide : OfByte 0x0C#8)
theorem shr (a b : Value) : Statement (.shr a b) := (by decide : OfByte 0x0D#8)
theorem bswap (a b : Value) : Statement (.bswap a b) := (by decide : OfByte 0x0E#8)
theorem sigb (a b : Value) : Statement (.sigb a b) := (by decide : OfByte 0x0F#8)
theorem cmpeq (a b : Value) : Statement (.cmpeq a b) := (by decide : OfByte 0x10#8)
theorem cmplt (a b : Value) : Statement (.cmplt a b) := (by decide : OfByte 0x11#8)
theorem addT (a b : Value) : Statement (.addT a b) := (by decide : OfByte 0x21#8)
theorem subT (a b : Value) : Statement (.subT a b) := (by decide : OfByte 0x22#8)
theorem mulT (a b : Value) : Statement (.mulT a b) := (by decide : OfByte 0x23#8)

end Sys2Proof.Laws.OpcodeShape
end

