-- ==== Sys2Proof/Laws/Run.lean ====
section
/-!
SUPPORT. Running the machine for several steps: the first step is peeled off, and an idle machine stays as it is.
-/
namespace Sys2Proof.Machine

/-- A run of `n + 1` steps whose first step goes on is the run of `n` steps from there, on any machine. -/
theorem run_succ_of_next {M : Host.Core} {s t : M.State} (n : Nat) (h : M.step s = .next t) :
    M.run (n + 1) s = M.run n t := by
  simp only [Host.Core.run, h]

/-- The same for this machine, in terms of its own step. -/
theorem core_run_succ {s t : State} (n : Nat) (h : step s = .next t) :
    Sys2Proof.core.run (n + 1) s = Sys2Proof.core.run n t :=
  run_succ_of_next (M := Sys2Proof.core) n h

/-- With no transaction outstanding, no run under way and no `Reset`, a step changes nothing (R110). -/
theorem step_idle {s : State} (hreset : s.resetAsserted = false) (ho : s.outstanding = none)
    (hr : s.run ≠ .running) : step s = .next s := by
  simp only [step, hreset, ho, Bool.false_eq_true, if_false]
  cases h : s.run <;> simp_all [State.hostMove]

/-- So an idle machine stays idle for any number of steps. -/
theorem core_run_idle {s : State} (hreset : s.resetAsserted = false) (ho : s.outstanding = none)
    (hr : s.run ≠ .running) (n : Nat) : Sys2Proof.core.run n s = .next s := by
  induction n with
  | zero => rfl
  | succ n ih => rw [core_run_succ n (step_idle hreset ho hr), ih]

end Sys2Proof.Machine
end

