-- ==== Sys2Proof/Tests/Slice0.lean ====
section
/-!
SUPPORT. The model's own tests. The words and the expected responses are those of spec/95_test_vectors.md, or of the
example in the rule a theorem's comment names; none is the model's own answer pasted back. The witnesses at the end
meet the hypotheses of the statements in Certificates/Slice0/Obligations.lean.
-/
namespace Sys2Proof.Tests

open Sys2Proof.Machine Sys2Proof.Safety

set_option exponentiation.threshold 264

/-- The test pattern X of spec/95_test_vectors.md. -/
def patternX : Value := 0x0123456789ABCDEFFEDCBA9876543210#128

/-- A state whose outstanding transaction is the request of a 264-bit word, the first of a run. -/
def waiting (w : BitVec 264) : State :=
  { State.reset with outstanding := some (Request.ofWord w), issued := [Request.ofWord w], run := .running }

/-- The response one step gives to the request of a word. -/
def responseTo (w : BitVec 264) : Option Response :=
  match step (waiting w) with
  | .next t => t.response
  | .fault _ | .refused _ => none

/-! ## Decoding: a word of each instruction, written out from R30 and R33 -/

theorem test_decode_add : decodeWord 0x010123456789ABCDEFFEDCBA98765432100FF00FF00FF00FF0FFFF0000FFFF0000#264 =
    .ok (.add 0x0123456789ABCDEFFEDCBA9876543210#128 0x0FF00FF00FF00FF0FFFF0000FFFF0000#128) := by decide

theorem test_decode_sub : decodeWord 0x020123456789ABCDEFFEDCBA98765432100FF00FF00FF00FF0FFFF0000FFFF0000#264 =
    .ok (.sub 0x0123456789ABCDEFFEDCBA9876543210#128 0x0FF00FF00FF00FF0FFFF0000FFFF0000#128) := by decide

theorem test_decode_mul : decodeWord 0x030123456789ABCDEFFEDCBA98765432100FF00FF00FF00FF0FFFF0000FFFF0000#264 =
    .ok (.mul 0x0123456789ABCDEFFEDCBA9876543210#128 0x0FF00FF00FF00FF0FFFF0000FFFF0000#128) := by decide

theorem test_decode_div : decodeWord 0x040123456789ABCDEFFEDCBA98765432100FF00FF00FF00FF0FFFF0000FFFF0000#264 =
    .ok (.div 0x0123456789ABCDEFFEDCBA9876543210#128 0x0FF00FF00FF00FF0FFFF0000FFFF0000#128) := by decide

theorem test_decode_rem : decodeWord 0x050123456789ABCDEFFEDCBA98765432100FF00FF00FF00FF0FFFF0000FFFF0000#264 =
    .ok (.rem 0x0123456789ABCDEFFEDCBA9876543210#128 0x0FF00FF00FF00FF0FFFF0000FFFF0000#128) := by decide

theorem test_decode_divrem : decodeWord 0x060123456789ABCDEFFEDCBA98765432100FF00FF00FF00FF0FFFF0000FFFF0000#264 =
    .ok (.divrem 0x0123456789ABCDEFFEDCBA9876543210#128 0x0FF00FF00FF00FF0FFFF0000FFFF0000#128) := by decide

theorem test_decode_and : decodeWord 0x080123456789ABCDEFFEDCBA98765432100FF00FF00FF00FF0FFFF0000FFFF0000#264 =
    .ok (.and 0x0123456789ABCDEFFEDCBA9876543210#128 0x0FF00FF00FF00FF0FFFF0000FFFF0000#128) := by decide

theorem test_decode_or : decodeWord 0x090123456789ABCDEFFEDCBA98765432100FF00FF00FF00FF0FFFF0000FFFF0000#264 =
    .ok (.or 0x0123456789ABCDEFFEDCBA9876543210#128 0x0FF00FF00FF00FF0FFFF0000FFFF0000#128) := by decide

theorem test_decode_xor : decodeWord 0x0A0123456789ABCDEFFEDCBA98765432100FF00FF00FF00FF0FFFF0000FFFF0000#264 =
    .ok (.xor 0x0123456789ABCDEFFEDCBA9876543210#128 0x0FF00FF00FF00FF0FFFF0000FFFF0000#128) := by decide

theorem test_decode_not : decodeWord 0x0B0123456789ABCDEFFEDCBA987654321000000000000000000000000000000000#264 =
    .ok (.not 0x0123456789ABCDEFFEDCBA9876543210#128 0x00000000000000000000000000000000#128) := by decide

theorem test_decode_shl : decodeWord 0x0C0123456789ABCDEFFEDCBA98765432100FF00FF00FF00FF0FFFF0000FFFF0000#264 =
    .ok (.shl 0x0123456789ABCDEFFEDCBA9876543210#128 0x0FF00FF00FF00FF0FFFF0000FFFF0000#128) := by decide

theorem test_decode_shr : decodeWord 0x0D0123456789ABCDEFFEDCBA98765432100FF00FF00FF00FF0FFFF0000FFFF0000#264 =
    .ok (.shr 0x0123456789ABCDEFFEDCBA9876543210#128 0x0FF00FF00FF00FF0FFFF0000FFFF0000#128) := by decide

theorem test_decode_bswap : decodeWord 0x0E0123456789ABCDEFFEDCBA987654321000000000000000000000000000000000#264 =
    .ok (.bswap 0x0123456789ABCDEFFEDCBA9876543210#128 0x00000000000000000000000000000000#128) := by decide

theorem test_decode_sigb : decodeWord 0x0F0123456789ABCDEFFEDCBA987654321000000000000000000000000000000000#264 =
    .ok (.sigb 0x0123456789ABCDEFFEDCBA9876543210#128 0x00000000000000000000000000000000#128) := by decide

theorem test_decode_cmpeq : decodeWord 0x100123456789ABCDEFFEDCBA98765432100FF00FF00FF00FF0FFFF0000FFFF0000#264 =
    .ok (.cmpeq 0x0123456789ABCDEFFEDCBA9876543210#128 0x0FF00FF00FF00FF0FFFF0000FFFF0000#128) := by decide

theorem test_decode_cmplt : decodeWord 0x110123456789ABCDEFFEDCBA98765432100FF00FF00FF00FF0FFFF0000FFFF0000#264 =
    .ok (.cmplt 0x0123456789ABCDEFFEDCBA9876543210#128 0x0FF00FF00FF00FF0FFFF0000FFFF0000#128) := by decide

theorem test_decode_addT : decodeWord 0x210123456789ABCDEFFEDCBA98765432100FF00FF00FF00FF0FFFF0000FFFF0000#264 =
    .ok (.addT 0x0123456789ABCDEFFEDCBA9876543210#128 0x0FF00FF00FF00FF0FFFF0000FFFF0000#128) := by decide

theorem test_decode_subT : decodeWord 0x220123456789ABCDEFFEDCBA98765432100FF00FF00FF00FF0FFFF0000FFFF0000#264 =
    .ok (.subT 0x0123456789ABCDEFFEDCBA9876543210#128 0x0FF00FF00FF00FF0FFFF0000FFFF0000#128) := by decide

theorem test_decode_mulT : decodeWord 0x230123456789ABCDEFFEDCBA98765432100FF00FF00FF00FF0FFFF0000FFFF0000#264 =
    .ok (.mulT 0x0123456789ABCDEFFEDCBA9876543210#128 0x0FF00FF00FF00FF0FFFF0000FFFF0000#128) := by decide


/-- NOT X, MAX: a legal request whose ignored operand is not 0 (spec/95_test_vectors.md 2.4). -/
theorem test_decode_not_ignored_operand : decodeWord 0x0B0123456789ABCDEFFEDCBA9876543210FFFFFFFFFFFFFFFFFFFFFFFFFFFFFFFF#264 =
    .ok (.not patternX Config.maxValue) := by decide

/-! Illegal opcodes, a few of each group of R36 (spec/95_test_vectors.md 2.8). -/

theorem test_reject_unassigned : [0x00#8, 0x07#8, 0x12#8, 0x1F#8].map (fun o => decode ⟨o, patternX, patternX⟩) =
    List.replicate 4 (.error .unassignedFunction) := by decide

theorem test_reject_no_trapping_variant :
    [0x20#8, 0x24#8, 0x26#8, 0x28#8, 0x2C#8, 0x30#8, 0x3F#8].map (fun o => decode ⟨o, patternX, patternX⟩) =
    List.replicate 7 (.error .noTrappingVariant) := by decide

theorem test_reject_upper_bits : [0x40#8, 0x41#8, 0x81#8, 0xFF#8].map (fun o => decode ⟨o, patternX, patternX⟩) =
    List.replicate 4 (.error .upperBitsSet) := by decide

theorem test_illegal_response :
    responseTo 0x410011223344556677001122334455667700112233445566770011223344556677#264 = some (.fault .illegalOp) := by
  decide

/-- 19 rows, no two with the same opcode (R33). -/
theorem test_opcode_map_distinct : opcodeMap.length = 19 ∧ (opcodeMap.map Prod.fst).Nodup := by decide

theorem test_table_word_mul_trapping : decodeTableWord 8 0x23 = some (.mulT 0#128 0#128) := by decide

/-! ## Well-formedness: an ill-formed term for each check -/

theorem test_wf_refuses_not_with_operand : (Instr.not patternX 1#128).wellFormed = false := by decide
theorem test_wf_refuses_bswap_with_operand : (Instr.bswap patternX 1#128).wellFormed = false := by decide
theorem test_wf_refuses_sigb_with_operand : (Instr.sigb patternX 1#128).wellFormed = false := by decide
theorem test_wf_accepts_assembled_not : (Instr.not patternX 0#128).wellFormed = true := by decide

/-- The first operand names the line itself. -/
theorem test_wf_refuses_unbound_first : programWellFormed [⟨0x01#8, .result 0 .r, .lit 1#128⟩] = false := by decide

/-- The second operand of the second line names the line itself. -/
theorem test_wf_refuses_unbound_second :
    programWellFormed [⟨0x01#8, .lit 1#128, .lit 1#128⟩, ⟨0x02#8, .lit 1#128, .result 1 .r⟩] = false := by decide

theorem test_wf_accepts_bound : programWellFormed
    [⟨0x06#8, .lit patternX, .lit 7#128⟩, ⟨0x21#8, .result 0 .r, .result 0 .r2⟩] = true := by decide

/-! ## One step of each instruction, with the responses of spec/95_test_vectors.md -/

/-- spec/95_test_vectors.md 2.1 row 5. -/
theorem test_add_carry_step_only_overflow :
    responseTo 0x01FFFFFFFFFFFFFFFF00000000000000010000000000000000FFFFFFFFFFFFFFFF#264 =
      some (.ok 0x0#128 0x0#128 true) := by decide

/-- spec/95_test_vectors.md 2.1 row 9. -/
theorem test_add_sum_just_below_overflow :
    responseTo 0x010123456789ABCDEFFEDCBA9876543210FEDCBA98765432100123456789ABCDEF#264 =
      some (.ok 0xFFFFFFFFFFFFFFFFFFFFFFFFFFFFFFFF#128 0x0#128 false) := by decide

/-- spec/95_test_vectors.md 2.1, SUB (5,0),(5,1). -/
theorem test_sub_borrow_step_only_underflow :
    responseTo 0x020000000000000005000000000000000000000000000000050000000000000001#264 =
      some (.ok 0xFFFFFFFFFFFFFFFFFFFFFFFFFFFFFFFF#128 0x0#128 true) := by decide

/-- spec/95_test_vectors.md 2.1, SUB (0,5),(1,0). -/
theorem test_sub_high_underflow :
    responseTo 0x020000000000000000000000000000000500000000000000010000000000000000#264 =
      some (.ok 0xFFFFFFFFFFFFFFFF0000000000000005#128 0x0#128 true) := by decide

/-- spec/95_test_vectors.md 2.2, (2^96-1)(2^32+1). -/
theorem test_mul_top_segment_only_overflow :
    responseTo 0x0300000000FFFFFFFFFFFFFFFFFFFFFFFF00000000000000000000000100000001#264 =
      some (.ok 0xFFFFFFFFFFFFFFFEFFFFFFFF#128 0x0#128 true) := by decide

/-- spec/95_test_vectors.md 2.2. -/
theorem test_mul_cross_half :
    responseTo 0x030000000000000000000000012345678900000000000000010000000FEDCBA987#264 =
      some (.ok 0x12345679B1FA00ACC59960A3F#128 0x0#128 false) := by decide

/-- spec/95_test_vectors.md 2.3. -/
theorem test_div_max_by_low_half :
    responseTo 0x04FFFFFFFFFFFFFFFFFFFFFFFFFFFFFFFF0000000000000000FFFFFFFFFFFFFFFF#264 =
      some (.ok 0x10000000000000001#128 0x0#128 false) := by decide +kernel

/-- spec/95_test_vectors.md 2.3. -/
theorem test_div_by_zero :
    responseTo 0x040000000000000000000000000000000500000000000000000000000000000000#264 =
      some (.fault .divideByZero) := by decide

/-- spec/95_test_vectors.md 2.3. -/
theorem test_rem_general :
    responseTo 0x050000000000000000000000000000006400000000000000000000000000000007#264 =
      some (.ok 0x2#128 0x0#128 false) := by decide

/-- spec/95_test_vectors.md 2.3. -/
theorem test_rem_by_one :
    responseTo 0x050123456789ABCDEFFEDCBA987654321000000000000000000000000000000001#264 =
      some (.ok 0x0#128 0x0#128 false) := by decide

/-- spec/95_test_vectors.md 2.3. -/
theorem test_divrem_general_multi_half :
    responseTo 0x060123456789ABCDEFFEDCBA987654321000000000000000000000001000000007#264 =
      some (.ok 0x1234567892C5F92B2D950C#128 0x848151EBC#128 false) := by decide +kernel

/-- spec/95_test_vectors.md 2.3. -/
theorem test_divrem_dividend_below_divisor :
    responseTo 0x06000000000000000000000000000000070123456789ABCDEFFEDCBA9876543210#264 =
      some (.ok 0x0#128 0x7#128 false) := by decide

/-- the example of R73. -/
theorem test_and :
    responseTo 0x08FF00FF00FF00FF000F0F0F0F0F0F0F0F0FF00FF00FF00FF0FFFF0000FFFF0000#264 =
      some (.ok 0xF000F000F000F000F0F00000F0F0000#128 0x0#128 false) := by decide

/-- the example of R74. -/
theorem test_or :
    responseTo 0x09FF00FF00FF00FF000F0F0F0F0F0F0F0F0FF00FF00FF00FF0FFFF0000FFFF0000#264 =
      some (.ok 0xFFF0FFF0FFF0FFF0FFFF0F0FFFFF0F0F#128 0x0#128 false) := by decide

/-- the example of R75. -/
theorem test_xor :
    responseTo 0x0AFF00FF00FF00FF000F0F0F0F0F0F0F0F0FF00FF00FF00FF0FFFF0000FFFF0000#264 =
      some (.ok 0xF0F0F0F0F0F0F0F0F0F00F0FF0F00F0F#128 0x0#128 false) := by decide

/-- spec/95_test_vectors.md 2.4. -/
theorem test_not_ignores_operand :
    responseTo 0x0B0123456789ABCDEFFEDCBA9876543210FFFFFFFFFFFFFFFFFFFFFFFFFFFFFFFF#264 =
      some (.ok 0xFEDCBA98765432100123456789ABCDEF#128 0x0#128 false) := by decide

/-- spec/95_test_vectors.md 2.5. -/
theorem test_shl_by_63 :
    responseTo 0x0C0123456789ABCDEFFEDCBA98765432100000000000000000000000000000003F#264 =
      some (.ok 0xFF6E5D4C3B2A19080000000000000000#128 0x0#128 false) := by decide

/-- spec/95_test_vectors.md 2.5, amount 200 acts as 72. -/
theorem test_shl_amount_masked :
    responseTo 0x0C0123456789ABCDEFFEDCBA9876543210000000000000000000000000000000C8#264 =
      some (.ok 0xDCBA9876543210000000000000000000#128 0x0#128 false) := by decide

/-- spec/95_test_vectors.md 2.5. -/
theorem test_shr_by_63 :
    responseTo 0x0D0123456789ABCDEFFEDCBA98765432100000000000000000000000000000003F#264 =
      some (.ok 0x2468ACF13579BDF#128 0x0#128 false) := by decide

/-- spec/95_test_vectors.md 2.5. -/
theorem test_shr_upper_amount_bits_ignored :
    responseTo 0x0DFFFFFFFFFFFFFFFFFFFFFFFFFFFFFFFF00000000000000010000000000000040#264 =
      some (.ok 0xFFFFFFFFFFFFFFFF#128 0x0#128 false) := by decide

/-- the example of R77. -/
theorem test_bswap :
    responseTo 0x0E00112233445566778899AABBCCDDEEFF00000000000000000000000000000000#264 =
      some (.ok 0xFFEEDDCCBBAA99887766554433221100#128 0x0#128 false) := by decide

/-- spec/95_test_vectors.md 2.7. -/
theorem test_sigb_pattern :
    responseTo 0x0F0123456789ABCDEFFEDCBA987654321000000000000000000000000000000000#264 =
      some (.ok 0x79#128 0x0#128 false) := by decide +kernel

/-- spec/95_test_vectors.md 2.7. -/
theorem test_sigb_top_bit :
    responseTo 0x0F8000000000000000000000000000000000000000000000000000000000000005#264 =
      some (.ok 0x80#128 0x0#128 false) := by decide +kernel

/-- spec/95_test_vectors.md 2.6. -/
theorem test_cmpeq_halves_exchanged :
    responseTo 0x100000000000000000000000000000000100000000000000010000000000000000#264 =
      some (.ok 0x0#128 0x0#128 false) := by decide

/-- spec/95_test_vectors.md 2.6. -/
theorem test_cmplt_unsigned_halves :
    responseTo 0x117FFFFFFFFFFFFFFFFFFFFFFFFFFFFFFF80000000000000000000000000000000#264 =
      some (.ok 0x1#128 0x0#128 false) := by decide

/-- spec/95_test_vectors.md 2.6. -/
theorem test_cmplt_high_half_decides :
    responseTo 0x11000000000000000100000000000000000000000000000000FFFFFFFFFFFFFFFF#264 =
      some (.ok 0x0#128 0x0#128 false) := by decide

/-- spec/95_test_vectors.md 2.1. -/
theorem test_addT_overflow :
    responseTo 0x21FFFFFFFFFFFFFFFFFFFFFFFFFFFFFFFF00000000000000000000000000000001#264 =
      some (.fault .overflow) := by decide

/-- spec/95_test_vectors.md 2.1. -/
theorem test_addT_fits :
    responseTo 0x21FFFFFFFFFFFFFFFFFFFFFFFFFFFFFFFF00000000000000000000000000000000#264 =
      some (.ok 0xFFFFFFFFFFFFFFFFFFFFFFFFFFFFFFFF#128 0x0#128 false) := by decide

/-- spec/95_test_vectors.md 2.1. -/
theorem test_subT_underflow :
    responseTo 0x220000000000000001000000000000000000000000000000010000000000000001#264 =
      some (.fault .overflow) := by decide

/-- spec/95_test_vectors.md 2.1. -/
theorem test_subT_fits :
    responseTo 0x220000000000000000000000000000000C00000000000000000000000000000007#264 =
      some (.ok 0x5#128 0x0#128 false) := by decide

/-- spec/95_test_vectors.md 2.2. -/
theorem test_mulT_overflow :
    responseTo 0x23FFFFFFFFFFFFFFFFFFFFFFFFFFFFFFFF00000000000000000000000000000002#264 =
      some (.fault .overflow) := by decide

/-- spec/95_test_vectors.md 2.2. -/
theorem test_mulT_fits :
    responseTo 0x23FFFFFFFFFFFFFFFFFFFFFFFFFFFFFFFF00000000000000000000000000000001#264 =
      some (.ok 0xFFFFFFFFFFFFFFFFFFFFFFFFFFFFFFFF#128 0x0#128 false) := by decide


/-- The trace of R72: 100 / 7 leaves quotient 14 and remainder 2 in the general case. -/
theorem test_divide_general_trace : divideGeneral 100#128 7#128 = (14#128, 2#128) := by decide

/-- The classification table as R55 prints it, row by row. -/
theorem test_classification_table : limbPairs.map (fun p => classify p.1 p.2) =
    [.contributes, .contributes, .contributes, .mustFit32, .contributes, .contributes, .mustFit32, .mustBeZero,
     .contributes, .mustFit32, .mustBeZero, .mustBeZero, .mustFit32, .mustBeZero, .mustBeZero, .mustBeZero] := by decide

/-! ## The state, the host and reset -/

/-- U8: a request presented while a transaction is outstanding. -/
theorem test_accept_refused_while_outstanding : (match State.accept ⟨0x01#8, 1#128, 1#128⟩ (waiting 0#264) with
    | .refused r => decide (r = .requestWhileOutstanding)
    | .next _ | .fault _ => false) = true := by decide

/-- R104: a fault response ends the run and leaves the unit ready. -/
theorem test_fault_ends_run : (match step (waiting 0x040000000000000000000000000000000500000000000000000000000000000000#264) with
    | .next t => decide (t.run = .faulted .divideByZero ∧ t.outstanding = none ∧ t.answered = [.fault .divideByZero])
    | .fault _ | .refused _ => false) = true := by decide

/-- R121: a transaction outstanding at `Reset` gets no response and cuts its run off. -/
theorem test_reset_cuts_run_off : (match step (waiting 0#264).assertReset with
    | .next t => decide (t.run = .cutOff ∧ t.outstanding = none ∧ t.response = none ∧ t.answered = [])
    | .fault _ | .refused _ => false) = true := by decide

/-- A run with one line left, which names both results of the DIVREM that was answered. -/
def oneLineLeft : State :=
  { State.reset with
    program := [⟨0x21#8, .result 0 .r, .result 0 .r2⟩]
    issued := [⟨0x06#8, 100#128, 7#128⟩]
    answered := [.ok 14#128 2#128 false]
    run := .running }

/-- R38: the host issues the next line with the values of its variables. -/
theorem test_host_issues_next_line : (match step oneLineLeft with
    | .next t => decide (t.outstanding = some ⟨0x21#8, 14#128, 2#128⟩ ∧ t.program = [])
    | .fault _ | .refused _ => false) = true := by decide

/-- An opcode-table row placed in the reset state runs as the first instruction. -/
theorem test_table_row_runs_first : (match step (State.reset.withFetchWord 8 0x0B) with
    | .next t => decide (t.response = some (.ok Config.maxValue 0#128 false))
    | .fault _ | .refused _ => false) = true := by decide


/-! ## Witnesses: the hypotheses of each statement are met together, each clause at a boundary where it has one -/

/-- A legal and an illegal request, each outstanding with no `Reset`: StepAnswersTheDecodedRequest,
ResponseDependsOnTheRequestAlone, OneTransactionAtATime, IllegalOpRaisedExactlyOnIllegalOpcode. -/
theorem witness_outstanding_legal : (waiting (encodeWord (.mulT 3#128 4#128))).resetAsserted = false ∧
    (waiting (encodeWord (.mulT 3#128 4#128))).outstanding = some ⟨0x23#8, 3#128, 4#128⟩ ∧
    decode ⟨0x23#8, 3#128, 4#128⟩ = .ok (.mulT 3#128 4#128) := by decide

theorem witness_outstanding_illegal : (waiting 0#264).resetAsserted = false ∧
    (waiting 0#264).outstanding = some ⟨0x00#8, 0#128, 0#128⟩ ∧
    decode ⟨0x00#8, 0#128, 0#128⟩ = .error .unassignedFunction := by decide

theorem witness_trapping_opcode : decode ⟨0x23#8, 0#128, 0#128⟩ = .ok (.mulT 0#128 0#128) ∧
    opcTrapping 0x23#8 = true := by decide

theorem witness_same_low_amount_bits : (0x100000000000000FF#128).extractLsb' 0 7 = (0x7F#128).extractLsb' 0 7 ∧
    (0x100000000000000FF#128).toNat % 128 = (0x7F#128).toNat % 128 := by decide

/-- CmpgtIsCmpltExchanged: a literal and a bound variable. -/
theorem witness_operand_values : operandValue oneLineLeft.answered (.lit 5#128) = some 5#128 ∧
    operandValue oneLineLeft.answered (.result 0 .r2) = some 2#128 := by decide

/-- AddTrappingFaultsOnOverflow at both sides of the boundary. -/
theorem witness_sum_at_boundary : Config.maxValue.toNat + (0#128).toNat < 2 ^ 128 ∧
    2 ^ 128 ≤ Config.maxValue.toNat + (1#128).toNat := by decide

/-- SubTrappingFaultsOnUnderflow at both sides of the boundary. -/
theorem witness_difference_at_boundary : (5#128).toNat ≤ (5#128).toNat ∧ (5#128).toNat < (6#128).toNat := by decide

/-- MulTrappingFaultsOnOverflow at both sides of the boundary. -/
theorem witness_product_at_boundary : Config.maxValue.toNat * (1#128).toNat < 2 ^ 128 ∧
    2 ^ 128 ≤ (0x80000000000000000000000000000000#128).toNat * (2#128).toNat := by decide

/-- MultiplicationLaws: bit counts of 128 and of 130 together, zero-extended halves, a nonzero divisor. -/
theorem witness_bit_counts : sigbits 0xFFFFFFFFFFFFFFFF#128 + sigbits 0xFFFFFFFFFFFFFFFF#128 = 128 ∧
    sigbits 0x10000000000000000#128 + sigbits 0x10000000000000000#128 = 130 ∧
    Value.high 0xFFFFFFFFFFFFFFFF#128 = 0#64 ∧ (7#128 : Value) ≠ 0#128 := by decide

/-- LongDivisionIsFloorDivision and the three division rules: a nonzero divisor and the zero one. -/
theorem witness_divisors : (1#128 : Value) ≠ 0#128 ∧ (0#128 : Value) = 0#128 := by decide

/-- DivisionLoopEndsWithinBound at its least operands, and at the longest loop. -/
theorem witness_general_division : 2 ≤ (2#128).toNat ∧ (2#128).toNat < (3#128).toNat ∧
    (2#128).toNat < Config.maxValue.toNat := by decide

/-- ShlMultipliesByPowerOfTwo, ShrDividesByPowerOfTwo, ShiftLaws: amounts at the edges of the four cases. -/
theorem witness_shift_amounts :
    [0x80#128, 1#128, 63#128, 64#128, 65#128, 127#128].map (fun b => (b.extractLsb' 0 7).toNat) =
    [0, 1, 63, 64, 65, 127] := by decide

/-- SigbitsIsLeastWidth: zero and the two ends of the nonzero values, a set and an unset bit. -/
theorem witness_sigbits : sigbits 0#128 = 0 ∧ sigbits 1#128 = 1 ∧ sigbits Config.maxValue = 128 ∧
    (1#128 : Value) ≠ 0#128 ∧ sigbits 1#128 ≤ 1 := by decide

/-- ComparisonOrderIsTotalAndNumeric: a chain of three. -/
theorem witness_chain : valueLt 0#128 0xFFFFFFFFFFFFFFFF#128 = true ∧
    valueLt 0xFFFFFFFFFFFFFFFF#128 0x10000000000000000#128 = true := by decide

/-- OnlyReportingOperationsSetOverflow: a response with the flag set and one with a remainder. -/
theorem witness_ok_responses :
    responseTo (encodeWord (.add Config.maxValue 1#128)) = some (.ok 0#128 0#128 true) ∧
    responseTo (encodeWord (.divrem 100#128 7#128)) = some (.ok 14#128 2#128 false) := by decide

/-- FaultIsDeliveredAsResponse, FaultEndsTheRun, RunOutcomeChangesOnlyByRule: a step that answers a fault. -/
theorem witness_fault_response : (waiting (encodeWord (.div 5#128 0#128))).resetAsserted = false ∧
    (waiting (encodeWord (.div 5#128 0#128))).run = .running ∧
    step (waiting (encodeWord (.div 5#128 0#128))) =
      .next ((waiting (encodeWord (.div 5#128 0#128))).deliver (.fault .divideByZero)) ∧
    ((waiting (encodeWord (.div 5#128 0#128))).deliver (.fault .divideByZero)).response =
      some (.fault .divideByZero) :=
  ⟨rfl, rfl, rfl, rfl⟩

/-- FaultEndsTheRun: a faulted run with no transaction outstanding. -/
theorem witness_faulted_run : ((waiting 0#264).deliver (.fault .illegalOp)).run = .faulted .illegalOp ∧
    ((waiting 0#264).deliver (.fault .illegalOp)).outstanding = none := by decide

/-- RunOutcomeChangesOnlyByRule: the steps that cut a run off and that make it final. -/
theorem witness_cut_off_step : step (waiting 0#264).assertReset = .next (waiting 0#264).assertReset.takeReset ∧
    (waiting 0#264).assertReset.takeReset.run ≠ (waiting 0#264).assertReset.run :=
  ⟨rfl, by decide⟩

/-- A run whose every line is answered. -/
def noLineLeft : State :=
  { oneLineLeft with program := [] }

theorem witness_final_step : step noLineLeft = .next { noLineLeft with run := .final } ∧
    RunStatus.final ≠ noLineLeft.run :=
  ⟨rfl, by decide⟩

/-- ResetDiscardsTheTransaction: a transaction to discard, and a state with neither a transaction nor a response. -/
theorem witness_reset : (waiting 0#264).outstanding = some ⟨0#8, 0#128, 0#128⟩ ∧
    State.reset.outstanding = none ∧ State.reset.response = none ∧ step State.reset = .next State.reset :=
  ⟨rfl, rfl, rfl, rfl⟩

/-- HostIssuesTheNextLine: a line whose operands are bound, and no line. -/
theorem witness_next_line : oneLineLeft.resetAsserted = false ∧ oneLineLeft.outstanding = none ∧
    oneLineLeft.run = .running ∧ oneLineLeft.program = [⟨0x21#8, .result 0 .r, .result 0 .r2⟩] ∧
    operandValue oneLineLeft.answered (.result 0 .r) = some 14#128 ∧
    operandValue oneLineLeft.answered (.result 0 .r2) = some 2#128 ∧
    noLineLeft.run = .running ∧ noLineLeft.program = [] := by decide

/-- StartedRunHasInvariant, RunAnswersAreTheClosedForms: a well-formed program and an idle unit. -/
theorem witness_started_run : State.reset.outstanding = none ∧ State.reset.resetAsserted = false ∧
    programWellFormed [⟨0x06#8, .lit 100#128, .lit 7#128⟩, ⟨0x21#8, .result 0 .r, .result 0 .r2⟩] = true := by decide

/-- StepKeepsInvariant, RunEndsWithinStepsLeft: a run under way, with a response given and a line left, meets the
invariant, no `Reset` is asserted, and a step from it goes on. -/
theorem witness_invariant : Inv oneLineLeft ∧ oneLineLeft.resetAsserted = false ∧
    step oneLineLeft = .next { oneLineLeft with
      program := []
      outstanding := some ⟨0x21#8, 14#128, 2#128⟩
      issued := oneLineLeft.issued ++ [⟨0x21#8, 14#128, 2#128⟩] } := by
  refine ⟨⟨by decide, by simp [oneLineLeft, State.reset], fun _ _ => rfl, rfl, fun _ => by decide⟩, rfl, rfl⟩

end Sys2Proof.Tests
end

/-! ## The state: the frame of the operations, the fields a response uses, the reset state -/

namespace Sys2Proof.Machine

open Sys2Proof.Safety

/-- An OK response leaves the outcome of the run as it was (R105 speaks of faults alone). -/
theorem runAfter_of_isOk {rsp : Response} (run : RunStatus) (h : isOk rsp = true) : runAfter run rsp = run := by
  cases rsp with
  | ok r r2 ovf => exact runAfter_ok run r r2 ovf
  | fault c => cases h

/-- The responses an operation may give, by the fields it uses (R17, R33): a fault or `r` alone, with the flag beside it
for the reporting operations and with the secondary result beside it for DIVREM. -/
inductive ResponseShape : Instr → Response → Prop where
  /-- A fault, which has no value fields (R104). -/
  | fault {i : Instr} {c : Fault} : ResponseShape i (.fault c)
  /-- The primary result alone. -/
  | onlyR {i : Instr} {r : Value} : ResponseShape i (.ok r 0#128 false)
  /-- ADD reports its overflow (R45). -/
  | add {a b r : Value} {ovf : Bool} : ResponseShape (.add a b) (.ok r 0#128 ovf)
  /-- SUB reports its underflow (R48). -/
  | sub {a b r : Value} {ovf : Bool} : ResponseShape (.sub a b) (.ok r 0#128 ovf)
  /-- MUL reports its overflow (R57). -/
  | mul {a b r : Value} {ovf : Bool} : ResponseShape (.mul a b) (.ok r 0#128 ovf)
  /-- DIVREM delivers the remainder too (R67). -/
  | divrem {a b q rem : Value} : ResponseShape (.divrem a b) (.ok q rem false)

/-- A meaning that raises a fault on a condition and answers OK otherwise has the shape of its OK response. -/
theorem faultOrOk_responseShape {i : Instr} {c : Fault} {r r2 : Value} {ovf : Bool} (p : Prop) [Decidable p]
    (h : ResponseShape i (.ok r r2 ovf)) :
    ∃ rsp, (∀ s, (if p then raiseFault c s else respondOk r r2 ovf s) = .next (s.deliver rsp)) ∧
      ResponseShape i rsp := by
  by_cases hp : p
  · exact ⟨.fault c, fun s => by rw [if_pos hp, raiseFault], .fault⟩
  · exact ⟨.ok r r2 ovf, fun s => by rw [if_neg hp, respondOk], h⟩

/-- The one response an operation delivers from every state has its operation's shape. -/
theorem exec_responseShape (i : Instr) :
    ∃ rsp, (∀ s, exec i s = .next (s.deliver rsp)) ∧ ResponseShape i rsp := by
  cases i with
  | add a b => exact ⟨_, fun _ => rfl, .add⟩
  | sub a b => exact ⟨_, fun _ => rfl, .sub⟩
  | mul a b => exact ⟨_, fun _ => rfl, .mul⟩
  | divrem a b => exact faultOrOk_responseShape (valueEq b 0#128 = true) .divrem
  | div a b | rem a b => exact faultOrOk_responseShape (valueEq b 0#128 = true) .onlyR
  | addT a b => exact faultOrOk_responseShape ((add128 a b).2 = true) .onlyR
  | subT a b => exact faultOrOk_responseShape ((sub128 a b).2 = true) .onlyR
  | mulT a b => exact faultOrOk_responseShape ((mul128 a b).2 = true) .onlyR
  | and a b | or a b | xor a b | not a b | shl a b | shr a b | bswap a b | sigb a b | cmpeq a b | cmplt a b =>
    exact ⟨_, fun _ => rfl, .onlyR⟩

/-- Only ADD, SUB and MUL have a response with the flag set (R17). -/
theorem ResponseShape.reporting_of_ovf {i : Instr} {r r2 : Value} (h : ResponseShape i (.ok r r2 true)) :
    ∃ a b, i = .add a b ∨ i = .sub a b ∨ i = .mul a b := by
  cases h with
  | add => exact ⟨_, _, .inl rfl⟩
  | sub => exact ⟨_, _, .inr (.inl rfl)⟩
  | mul => exact ⟨_, _, .inr (.inr rfl)⟩

/-- Only DIVREM has a response with a secondary result other than 0 (R33). -/
theorem ResponseShape.divrem_of_r2_ne_zero {i : Instr} {r r2 : Value} {ovf : Bool}
    (h : ResponseShape i (.ok r r2 ovf)) (hr2 : r2 ≠ 0#128) : ∃ a b, i = .divrem a b := by
  cases h with
  | divrem => exact ⟨_, _, rfl⟩
  | onlyR | add | sub | mul => exact absurd rfl hr2

/-- Settles O3: the one response `exec_delivers` names is delivered, and `deliver` says field by field what it writes. -/
theorem operationsWriteOnlyTheirResponse : Obligations.OperationsWriteOnlyTheirResponse := by
  intro i
  obtain ⟨rsp, hexec⟩ := exec_delivers i
  refine ⟨rsp, fun s => ⟨s.deliver rsp, hexec s, deliver_response rsp s, deliver_answered rsp s,
    deliver_outstanding rsp s, deliver_resetAsserted rsp s, deliver_program rsp s, deliver_issued rsp s, ?_, ?_⟩⟩
  · intro hok
    rw [deliver_run, runAfter_of_isOk s.run hok]
  · rintro c rfl
    rw [deliver_run, runAfter_fault]

/-- Settles O47, from the shape of each operation's response. -/
theorem onlyReportingOperationsSetOverflow : Obligations.OnlyReportingOperationsSetOverflow := by
  intro i s
  obtain ⟨rsp, hexec, hshape⟩ := exec_responseShape i
  refine ⟨s.deliver rsp, hexec s, fun r r2 ovf hrsp => ?_⟩
  obtain rfl : rsp = .ok r r2 ovf := by simpa using hrsp
  refine ⟨?_, hshape.divrem_of_r2_ne_zero⟩
  rintro rfl
  exact hshape.reporting_of_ovf

/-- Settles O51: the idle unit accepts (`accept_idle`). -/
theorem resetLeavesOnlyNoTransaction : Obligations.ResetLeavesOnlyNoTransaction :=
  ⟨rfl, rfl, rfl, fun _ => ⟨_, accept_idle rfl, rfl⟩⟩

/-- Settles O56: every record is empty and no run is under way, so each clause is about empty lists or has a false
hypothesis. -/
theorem invariantHoldsAtReset : Obligations.InvariantHoldsAtReset where
  inOrder := rfl
  outstandingIsLast _ hreq := nomatch hreq
  allAnswered _ _ := rfl
  outcomeSound := ⟨rfl, rfl⟩
  linesBound hrun := nomatch hrun

end Sys2Proof.Machine

/-! ## One transaction at a time, and a response that depends on its request alone -/

namespace Sys2Proof.Machine

/-- With no `Reset` asserted, the step of an outstanding request is the unit's answer to it (R32). -/
theorem step_outstanding {s : State} {req : Request} (hreset : s.resetAsserted = false)
    (hreq : s.outstanding = some req) : step s = answerRequest req s := by
  simp [step, hreset, hreq]

/-- A request is accepted exactly when no transaction is outstanding (R24). -/
theorem accept_next_iff {req : Request} {s : State} :
    (∃ t, State.accept req s = .next t) ↔ s.outstanding = none :=
  ⟨fun ⟨_, h⟩ => (accept_next h).1, fun h => ⟨_, accept_idle h⟩⟩

/-- Settles O2: `answerRequest_delivers` names the one response a request has from every state. -/
theorem responseDependsOnTheRequestAlone : Obligations.ResponseDependsOnTheRequestAlone := by
  choose f hf using answerRequest_delivers
  refine ⟨f, fun s req hreset hreq => ?_⟩
  rw [step_outstanding hreset hreq, hf]

/-- Settles O4: acceptance by `accept_next_iff`, and the step over an outstanding transaction by the cases of
`step_next`, of which the host's move has none outstanding. -/
theorem oneTransactionAtATime : Obligations.OneTransactionAtATime := by
  refine ⟨fun s req => ⟨accept_next_iff, fun t h => (accept_next h).2⟩, fun s t req hreq hstep => ?_⟩
  rcases step_next hstep with ⟨hreset, rfl⟩ | ⟨_, rsp, _, _, _, rfl⟩ | ⟨_, hnone, _⟩
  · refine ⟨takeReset_outstanding s, takeReset_issued s, takeReset_program s, fun hno => ?_⟩
    exact absurd (hreset.symm.trans hno) Bool.noConfusion
  · exact ⟨deliver_outstanding rsp s, deliver_issued rsp s, deliver_program rsp s, fun _ =>
      ⟨rsp, deliver_response rsp s, deliver_answered rsp s⟩⟩
  · exact absurd (hreq.symm.trans hnone) (Option.some_ne_none req)

end Sys2Proof.Machine

/-! ## The datapaths in closed form: half additions, comparison, logic and byte reversal -/

namespace Sys2Proof

theorem getLsbD_ofHalves (h l : Half) (i : Nat) :
    (Value.ofHalves h l).getLsbD i = if i < 64 then l.getLsbD i else h.getLsbD (i - 64) := by
  rw [Value.ofHalves, BitVec.getLsbD_append]

/-- Two values are equal when both halves are (R88). -/
theorem eq_iff_halves {a b : Value} : a = b ↔ a.high = b.high ∧ a.low = b.low := by
  refine ⟨by rintro rfl; exact ⟨rfl, rfl⟩, fun ⟨hh, hl⟩ => ?_⟩
  rw [← ofHalves_high_low a, ← ofHalves_high_low b, hh, hl]

/-! What acts on each half acts on the whole value (R73 to R76). -/

theorem ofHalves_and (a b : Value) : Value.ofHalves (a.high &&& b.high) (a.low &&& b.low) = a &&& b := by
  simp only [Value.ofHalves, ← BitVec.and_append]
  exact congrArg₂ (· &&& ·) (ofHalves_high_low a) (ofHalves_high_low b)

theorem ofHalves_or (a b : Value) : Value.ofHalves (a.high ||| b.high) (a.low ||| b.low) = a ||| b := by
  simp only [Value.ofHalves, ← BitVec.or_append]
  exact congrArg₂ (· ||| ·) (ofHalves_high_low a) (ofHalves_high_low b)

theorem ofHalves_xor (a b : Value) : Value.ofHalves (a.high ^^^ b.high) (a.low ^^^ b.low) = a ^^^ b := by
  simp only [Value.ofHalves, ← BitVec.xor_append]
  exact congrArg₂ (· ^^^ ·) (ofHalves_high_low a) (ofHalves_high_low b)

theorem ofHalves_not (a : Value) : Value.ofHalves (~~~a.high) (~~~a.low) = ~~~a := by
  simp only [Value.ofHalves, ← BitVec.not_append]
  exact congrArg (~~~·) (ofHalves_high_low a)

namespace Machine

/-- Two flags of which at most one is set add up to their disjunction. -/
theorem toNat_or_of_add_le_one {o1 o2 : Bool} (h : o1.toNat + o2.toNat ≤ 1) :
    (o1 || o2).toNat = o1.toNat + o2.toNat := by
  revert o1 o2
  decide

/-- The three half additions of `add128` keep the exact sum, its bit 128 being the overflow flag (R46). -/
theorem toNat_add128 (a b : Value) :
    (add128 a b).1.toNat + 2 ^ 128 * (add128 a b).2.toNat = a.toNat + b.toNat := by
  have hlo := toNat_addHalf a.low b.low
  have hhi := toNat_addHalf a.high b.high
  have hcarry := toNat_addHalf (addHalf a.high b.high).1 (carryIn (addHalf a.low b.low).2)
  rw [toNat_carryIn] at hcarry
  simp only [add128, toNat_ofHalves, toNat_eq_halves a, toNat_eq_halves b]
  rw [toNat_or_of_add_le_one (by omega)]
  omega

/-- The three half subtractions of `sub128` keep the exact difference, the borrow being the overflow flag (R49). -/
theorem toNat_sub128 (a b : Value) :
    (sub128 a b).1.toNat + b.toNat = a.toNat + 2 ^ 128 * (sub128 a b).2.toNat := by
  have hlo := toNat_subHalf a.low b.low
  have hhi := toNat_subHalf a.high b.high
  have hborrow := toNat_subHalf (subHalf a.high b.high).1 (carryIn (subHalf a.low b.low).2)
  rw [toNat_carryIn] at hborrow
  simp only [sub128, toNat_ofHalves, toNat_eq_halves a, toNat_eq_halves b]
  rw [toNat_or_of_add_le_one (by omega)]
  omega

/-- `add128` is addition modulo 2^128 with the flag of a sum of 2^128 or more (R46). -/
theorem add128_eq (a b : Value) :
    add128 a b = (BitVec.ofNat 128 (a.toNat + b.toNat), decide (2 ^ 128 ≤ a.toNat + b.toNat)) := by
  have h := toNat_add128 a b
  refine Prod.ext (BitVec.eq_of_toNat_eq ?_) ?_
  · rw [BitVec.toNat_ofNat]
    omega
  · cases hc : (add128 a b).2 <;> simp only [hc, Bool.toNat_true, Bool.toNat_false] at h
    · exact (decide_eq_false (by omega)).symm
    · exact (decide_eq_true (by omega)).symm

/-- `sub128` is subtraction modulo 2^128 with the flag of a borrow (R49). -/
theorem sub128_eq (a b : Value) :
    sub128 a b = (BitVec.ofInt 128 (a.toNat - b.toNat), decide (a.toNat < b.toNat)) := by
  have h := toNat_sub128 a b
  refine Prod.ext (BitVec.eq_of_toNat_eq ?_) ?_
  · rw [BitVec.toNat_ofInt]
    omega
  · cases hc : (sub128 a b).2 <;> simp only [hc, Bool.toNat_true, Bool.toNat_false] at h
    · exact (decide_eq_false (by omega)).symm
    · exact (decide_eq_true (by omega)).symm

/-- A subtraction that does not borrow is exact. -/
theorem toNat_sub128_of_le {a b : Value} (h : b.toNat ≤ a.toNat) : (sub128 a b).1.toNat + b.toNat = a.toNat := by
  have hexact := toNat_sub128 a b
  have hborrow : (sub128 a b).2 = false := by rw [sub128_eq, decide_eq_false h.not_gt]
  rwa [hborrow] at hexact

/-- An addition that fits is exact. -/
theorem toNat_add128_of_lt {a b : Value} (h : a.toNat + b.toNat < 2 ^ 128) :
    (add128 a b).1.toNat = a.toNat + b.toNat := by
  rw [add128_eq, BitVec.toNat_ofNat, Nat.mod_eq_of_lt h]

/-- Equality of the halves is equality of the values (R88). -/
theorem valueEq_eq (a b : Value) : valueEq a b = decide (a = b) := by
  rw [valueEq, ← Bool.decide_and]
  exact decide_eq_decide.mpr eq_iff_halves.symm

/-- The lexicographic order on the halves is the unsigned order (R89, R90). -/
theorem valueLt_eq (a b : Value) : valueLt a b = decide (a.toNat < b.toNat) := by
  rw [valueLt, ← Bool.decide_and, ← Bool.decide_or]
  refine decide_eq_decide.mpr ?_
  rw [toNat_eq_halves a, toNat_eq_halves b, ← BitVec.toNat_inj]
  omega

theorem verdict_eq (c : Bool) : verdict c = if c then 1#128 else 0#128 := by
  cases c <;> rfl

/-- After `n` turns of the loop of R77, bit `i` below `8 * n` is the bit at the same place of the mirrored byte. -/
theorem getLsbD_swapBytes (a : Value) {n : Nat} (hn : n ≤ 16) (i : Nat) :
    (swapBytes a n).getLsbD i = (decide (i < 8 * n) && a.getLsbD (8 * (15 - i / 8) + i % 8)) := by
  induction n with
  | zero => simp [swapBytes]
  | succ n ih =>
    simp only [swapBytes, BitVec.getLsbD_or, ih (by omega), BitVec.getLsbD_shiftLeft, BitVec.getLsbD_setWidth,
      Value.byte, BitVec.getLsbD_extractLsb']
    rcases Nat.lt_or_ge i (8 * n) with hi | hi
    · simp [hi, show i < 8 * (n + 1) by omega]
    · rcases Nat.lt_or_ge i (8 * (n + 1)) with hi' | hi'
      · have hplace : 8 * (15 - i / 8) + i % 8 = 8 * (15 - n) + (i - 8 * n) := by omega
        simp [hi.not_gt, hi', hplace, show i < 128 by omega, show i - 8 * n < 128 by omega,
          show i - 8 * n < 8 by omega]
      · simp [hi.not_gt, hi'.not_gt, show ¬ i - 8 * n < 8 by omega]

/-- The 16 turns reverse the bytes of the whole value (R77). -/
theorem swapBytes_eq (a : Value) :
    swapBytes a 16 = BitVec.ofFnLE fun i : Fin 128 => a.getLsbD (8 * (15 - i.val / 8) + i.val % 8) := by
  ext i hi
  rw [BitVec.getElem_ofFnLE, ← BitVec.getLsbD_eq_getElem, getLsbD_swapBytes a le_rfl, decide_eq_true hi,
    Bool.true_and]

end Machine
end Sys2Proof

/-! ## The datapaths in closed form: shifts and the significant-bit count -/

namespace Sys2Proof.Machine

/-- The bits of a value, read off its halves. -/
theorem getLsbD_eq_halves (v : Value) (i : Nat) :
    v.getLsbD i = if i < 64 then v.low.getLsbD i else v.high.getLsbD (i - 64) := by
  rw [← getLsbD_ofHalves, ofHalves_high_low]

/-- The four cases of a left shift on halves are one left shift, bit by bit (R82, R84). -/
theorem shiftLeft128_eq (a : Value) (w : Nat) : shiftLeft128 a w = a <<< w := by
  apply BitVec.eq_of_getLsbD_eq
  intro i hi
  unfold shiftLeft128
  split_ifs with h0 h63 h64 <;>
    simp only [getLsbD_ofHalves, getLsbD_eq_halves a, BitVec.getLsbD_or, BitVec.getLsbD_shiftLeft,
      BitVec.getLsbD_ushiftRight, BitVec.getLsbD_zero]
  · grind
  · grind
  · grind
  · have hplace : i - 64 - (w - 64) = i - w := by omega
    rw [hplace]
    grind

/-- The four cases of a right shift on halves are one right shift, bit by bit (R83, R84). -/
theorem shiftRight128_eq (a : Value) (w : Nat) : shiftRight128 a w = a >>> w := by
  apply BitVec.eq_of_getLsbD_eq
  intro i hi
  unfold shiftRight128
  split_ifs with h0 h63 h64 <;>
    simp only [getLsbD_ofHalves, getLsbD_eq_halves a, BitVec.getLsbD_or, BitVec.getLsbD_shiftLeft,
      BitVec.getLsbD_ushiftRight, BitVec.getLsbD_zero] <;>
    grind

/-- A left shift as a product modulo 2^128 (R82). -/
theorem toNat_shiftLeft128 (a : Value) (w : Nat) :
    (shiftLeft128 a w).toNat = a.toNat * 2 ^ w % 2 ^ 128 := by
  rw [shiftLeft128_eq, BitVec.toNat_shiftLeft, Nat.shiftLeft_eq]

/-- A right shift as a quotient (R83). -/
theorem toNat_shiftRight128 (a : Value) (w : Nat) :
    (shiftRight128 a w).toNat = a.toNat / 2 ^ w := by
  rw [shiftRight128_eq, BitVec.toNat_ushiftRight, Nat.shiftRight_eq_div_pow]

/-- The scan of the `n` lowest bits finds the least width of the number they hold. -/
theorem sigbitsBelow_le_iff (v : Value) (n k : Nat) : sigbitsBelow v n ≤ k ↔ v.toNat % 2 ^ n < 2 ^ k := by
  induction n with
  | zero => simp [sigbitsBelow, Nat.mod_one]
  | succ n ih =>
    have hsplit : v.toNat % 2 ^ (n + 1) = v.toNat % 2 ^ n + 2 ^ n * (v.getLsbD n).toNat := by
      rw [Nat.mod_pow_succ, BitVec.getLsbD, Nat.toNat_testBit]
    have hlt : v.toNat % 2 ^ n < 2 ^ n := Nat.mod_lt _ (by positivity)
    cases hbit : v.getLsbD n with
    | false => simp [sigbitsBelow, hbit, hsplit, ih]
    | true =>
      simp only [sigbitsBelow, hbit, hsplit, if_true, Bool.toNat_true]
      constructor
      · intro hk
        have hpow : 2 ^ (n + 1) ≤ 2 ^ k := Nat.pow_le_pow_right (by decide) hk
        omega
      · intro hk
        by_contra hkn
        have hpow : 2 ^ k ≤ 2 ^ n := Nat.pow_le_pow_right (by decide) (by omega)
        omega

/-- `sigbits` is the least width that holds the value (R42). -/
theorem sigbits_le_iff {v : Value} {n : Nat} : sigbits v ≤ n ↔ v.toNat < 2 ^ n := by
  rw [sigbits, sigbitsBelow_le_iff, Nat.mod_eq_of_lt v.isLt]

theorem lt_two_pow_sigbits (v : Value) : v.toNat < 2 ^ sigbits v :=
  sigbits_le_iff.mp le_rfl

theorem sigbits_le_128 (v : Value) : sigbits v ≤ 128 :=
  sigbits_le_iff.mpr v.isLt

/-- A value has no fewer significant bits than a smaller one. -/
theorem sigbits_le_of_toNat_le {v w : Value} (h : v.toNat ≤ w.toNat) : sigbits v ≤ sigbits w :=
  sigbits_le_iff.mpr (h.trans_lt (lt_two_pow_sigbits w))

/-- The significant bits count the highest set bit: no smaller width holds the value (R42). -/
theorem two_pow_le_of_lt_sigbits {v : Value} {n : Nat} (h : n < sigbits v) : 2 ^ n ≤ v.toNat := by
  by_contra hlt
  exact absurd (sigbits_le_iff.mpr (Nat.lt_of_not_le hlt)) (Nat.not_le_of_lt h)

/-- `sigbits` by the binary logarithm (R42). -/
theorem sigbits_eq (v : Value) : sigbits v = if v = 0#128 then 0 else v.toNat.log2 + 1 := by
  split_ifs with h
  · exact Nat.le_zero.mp (sigbits_le_iff.mpr (by simp [h]))
  · have hv : v.toNat ≠ 0 := fun h0 => h (BitVec.eq_of_toNat_eq h0)
    refine eq_of_forall_ge_iff fun n => ?_
    rw [sigbits_le_iff, ← Nat.log2_lt hv, Nat.succ_le_iff]

end Sys2Proof.Machine

/-! ## The multiplier in closed form -/

namespace Sys2Proof.Machine

/-- The number a 128-bit value holds, limb by limb (R53). -/
theorem toNat_eq_limbs (v : Value) : v.toNat =
    (v.limb 0).toNat + (v.limb 1).toNat * 2 ^ 32 + (v.limb 2).toNat * 2 ^ 64 + (v.limb 3).toNat * 2 ^ 96 := by
  have hv := v.isLt
  simp only [Value.limb, BitVec.extractLsb'_toNat, Nat.shiftRight_eq_div_pow]
  omega

theorem toNat_low32 (x : Half) : (low32 x).toNat = x.toNat % 2 ^ 32 := by
  rw [low32, BitVec.toNat_setWidth_of_le (by decide), BitVec.extractLsb'_toNat, Nat.shiftRight_zero]

theorem toNat_high32 (x : Half) : (high32 x).toNat = x.toNat / 2 ^ 32 := by
  have hx := x.isLt
  rw [high32, BitVec.toNat_setWidth_of_le (by decide), BitVec.extractLsb'_toNat, Nat.shiftRight_eq_div_pow]
  omega

/-- The number four segments hold by their weights (R56). -/
def Segments.toNat (S : Segments) : Nat :=
  S.s0.toNat + S.s1.toNat * 2 ^ 32 + S.s2.toNat * 2 ^ 64 + S.s3.toNat * 2 ^ 96

/-- The product of two numbers of four digits, by the weights of the products of their digits. -/
theorem mul_four_digits (x a0 a1 a2 a3 b0 b1 b2 b3 : Nat) :
    (a0 + a1 * x + a2 * x ^ 2 + a3 * x ^ 3) * (b0 + b1 * x + b2 * x ^ 2 + b3 * x ^ 3) =
      a0 * b0 + (a0 * b1 + a1 * b0) * x + (a0 * b2 + a1 * b1 + a2 * b0) * x ^ 2 +
        (a0 * b3 + a1 * b2 + a2 * b1 + a3 * b0) * x ^ 3 +
      (a1 * b3 + a2 * b2 + a3 * b1 + (a2 * b3 + a3 * b2) * x + a3 * b3 * x ^ 2) * x ^ 4 := by
  ring

section limbProducts
variable (a b : Value)

/-- The product of limb `i` of `a` and limb `j` of `b` as a number (R54). -/
def productAt (i j : Nat) : Nat :=
  (limbProduct a b i j).toNat

/-- The low 32 bits of that product, as they are laid into a segment (R56). -/
def lowPart (i j : Nat) : Half :=
  low32 (limbProduct a b i j)

/-- Its high 32 bits, as they are laid into the next segment (R56). -/
def highPart (i j : Nat) : Half :=
  high32 (limbProduct a b i j)

/-- A product of two limbs fits its 64 bits, so it is exact (R54). -/
theorem productAt_eq (i j : Nat) : productAt a b i j = (a.limb i).toNat * (b.limb j).toNat := by
  have hlt : (a.limb i).toNat * (b.limb j).toNat < 2 ^ 32 * 2 ^ 32 :=
    Nat.mul_lt_mul'' (a.limb i).isLt (b.limb j).isLt
  rw [productAt, limbProduct, BitVec.toNat_mul, BitVec.toNat_setWidth_of_le (by decide),
    BitVec.toNat_setWidth_of_le (by decide)]
  exact Nat.mod_eq_of_lt hlt

/-- A product is its two parts, each below 2^32. -/
theorem productAt_eq_parts (i j : Nat) :
    productAt a b i j = (lowPart a b i j).toNat + 2 ^ 32 * (highPart a b i j).toNat ∧
      (lowPart a b i j).toNat < 2 ^ 32 ∧ (highPart a b i j).toNat < 2 ^ 32 := by
  have hlt := (limbProduct a b i j).isLt
  simp only [productAt, lowPart, highPart, toNat_low32, toNat_high32]
  omega

/-- The 16 products by weight make up the product of the operands; those of weight 2^128 or more are the last line
(R54, R60). -/
theorem toNat_mul_eq_products : a.toNat * b.toNat =
    productAt a b 0 0 + (productAt a b 0 1 + productAt a b 1 0) * 2 ^ 32 +
      (productAt a b 0 2 + productAt a b 1 1 + productAt a b 2 0) * 2 ^ 64 +
      (productAt a b 0 3 + productAt a b 1 2 + productAt a b 2 1 + productAt a b 3 0) * 2 ^ 96 +
    (productAt a b 1 3 + productAt a b 2 2 + productAt a b 3 1 +
      (productAt a b 2 3 + productAt a b 3 2) * 2 ^ 32 + productAt a b 3 3 * 2 ^ 64) * 2 ^ 128 := by
  simp only [productAt_eq, toNat_eq_limbs a, toNat_eq_limbs b]
  exact mul_four_digits (2 ^ 32) ..

/-- The parts of the products that each segment takes (R56). -/
theorem accumulate_eq : accumulate a b =
    { s0 := lowPart a b 0 0
      s1 := highPart a b 0 0 + lowPart a b 0 1 + lowPart a b 1 0
      s2 := highPart a b 0 1 + lowPart a b 0 2 + highPart a b 1 0 + lowPart a b 1 1 + lowPart a b 2 0
      s3 := highPart a b 0 2 + lowPart a b 0 3 + highPart a b 1 1 + lowPart a b 1 2 + highPart a b 2 0 +
        lowPart a b 2 1 + lowPart a b 3 0 } := by
  simp [accumulate, limbPairs, accumulateProduct, classify, addToSegment, lowPart, highPart]

/-- At most seven 32-bit parts meet in a segment, so none wraps: each holds the sum of its parts (R56). -/
theorem toNat_accumulate :
    (accumulate a b).s0.toNat = (lowPart a b 0 0).toNat ∧
    (accumulate a b).s1.toNat =
      (highPart a b 0 0).toNat + (lowPart a b 0 1).toNat + (lowPart a b 1 0).toNat ∧
    (accumulate a b).s2.toNat =
      (highPart a b 0 1).toNat + (lowPart a b 0 2).toNat + (highPart a b 1 0).toNat + (lowPart a b 1 1).toNat +
        (lowPart a b 2 0).toNat ∧
    (accumulate a b).s3.toNat =
      (highPart a b 0 2).toNat + (lowPart a b 0 3).toNat + (highPart a b 1 1).toNat + (lowPart a b 1 2).toNat +
        (highPart a b 2 0).toNat + (lowPart a b 2 1).toNat + (lowPart a b 3 0).toNat := by
  have hlow := fun i j => (productAt_eq_parts a b i j).2.1
  have hhigh := fun i j => (productAt_eq_parts a b i j).2.2
  rw [accumulate_eq]
  refine ⟨rfl, ?_, ?_, ?_⟩ <;> simp only [BitVec.toNat_add] <;> grind

/-- So each segment uses at most 35 of its 64 bits (R56). -/
theorem accumulate_lt : (accumulate a b).s0.toNat < 2 ^ 35 ∧ (accumulate a b).s1.toNat < 2 ^ 35 ∧
    (accumulate a b).s2.toNat < 2 ^ 35 ∧ (accumulate a b).s3.toNat < 2 ^ 35 := by
  obtain ⟨h0, h1, h2, h3⟩ := toNat_accumulate a b
  have hlow := fun i j => (productAt_eq_parts a b i j).2.1
  have hhigh := fun i j => (productAt_eq_parts a b i j).2.2
  grind

/-- The class violations of the table: a product of weight 2^96 that exceeds 32 bits, or one of weight 2^128 or more
that is not 0 (R55). -/
theorem any_violatesClass_iff : limbPairs.any (violatesClass a b) = true ↔
    2 ^ 32 ≤ productAt a b 0 3 ∨ 2 ^ 32 ≤ productAt a b 1 2 ∨ productAt a b 1 3 ≠ 0 ∨
    2 ^ 32 ≤ productAt a b 2 1 ∨ productAt a b 2 2 ≠ 0 ∨ productAt a b 2 3 ≠ 0 ∨
    2 ^ 32 ≤ productAt a b 3 0 ∨ productAt a b 3 1 ≠ 0 ∨ productAt a b 3 2 ≠ 0 ∨
    productAt a b 3 3 ≠ 0 := by
  simp [limbPairs, violatesClass, classify, productAt, ← BitVec.toNat_inj]

end limbProducts

/-- The propagation of carries keeps the number that the segments hold, and brings the lower three below 2^32
(R56). -/
theorem toNat_propagate {S : Segments} (h1 : S.s1.toNat < 2 ^ 35) (h2 : S.s2.toNat < 2 ^ 35)
    (h3 : S.s3.toNat < 2 ^ 35) :
    (propagate S).toNat = S.toNat ∧ (propagate S).s0.toNat < 2 ^ 32 ∧ (propagate S).s1.toNat < 2 ^ 32 ∧
      (propagate S).s2.toNat < 2 ^ 32 := by
  have h0 := S.s0.isLt
  simp only [propagate, Segments.toNat, toNat_low32, BitVec.toNat_add, BitVec.toNat_ushiftRight,
    Nat.shiftRight_eq_div_pow]
  omega

/-- The segments, shifted to their places and added, are the low 128 bits of the number they hold (R58). -/
theorem toNat_combine (S : Segments) : (combine S).toNat = S.toNat % 2 ^ 128 := by
  have h0 := S.s0.isLt
  have h1 := S.s1.isLt
  simp only [combine, Segments.toNat, BitVec.toNat_add, BitVec.toNat_shiftLeft, Nat.shiftLeft_eq,
    BitVec.toNat_setWidth_of_le (show 64 ≤ 128 by decide), toNat_low32]
  omega

/-- What the segments leave out of the product, over 2^128: the high parts of the products of weight 2^96, and the
products of weight 2^128 or more (R60). -/
def leftOut (a b : Value) : Nat :=
  (highPart a b 0 3).toNat + (highPart a b 1 2).toNat + (highPart a b 2 1).toNat + (highPart a b 3 0).toNat +
    (productAt a b 1 3 + productAt a b 2 2 + productAt a b 3 1) +
    (productAt a b 2 3 + productAt a b 3 2) * 2 ^ 32 + productAt a b 3 3 * 2 ^ 64

/-- The product is what the segments hold and what they leave out (R60). -/
theorem toNat_mul_eq_accumulate (a b : Value) :
    a.toNat * b.toNat = (accumulate a b).toNat + 2 ^ 128 * leftOut a b := by
  obtain ⟨hs0, hs1, hs2, hs3⟩ := toNat_accumulate a b
  have hparts := fun i j => (productAt_eq_parts a b i j).1
  rw [toNat_mul_eq_products, Segments.toNat, hs0, hs1, hs2, hs3, leftOut, hparts 0 0, hparts 0 1, hparts 1 0,
    hparts 0 2, hparts 1 1, hparts 2 0, hparts 0 3, hparts 1 2, hparts 2 1, hparts 3 0]
  omega

/-- The class violations are the products that the segments leave something of (R55, R60). -/
theorem any_violatesClass_iff_leftOut (a b : Value) :
    limbPairs.any (violatesClass a b) = true ↔ leftOut a b ≠ 0 := by
  have hfit : ∀ i j, 2 ^ 32 ≤ productAt a b i j ↔ (highPart a b i j).toNat ≠ 0 := fun i j => by
    have hparts := productAt_eq_parts a b i j
    omega
  rw [any_violatesClass_iff]
  simp only [hfit, leftOut]
  omega

/-- The top segment exceeds 32 bits when the number the segments hold exceeds 128 bits (R56, R60). -/
theorem topExceeds_iff {S : Segments} (h0 : S.s0.toNat < 2 ^ 32) (h1 : S.s1.toNat < 2 ^ 32)
    (h2 : S.s2.toNat < 2 ^ 32) : topExceeds S = true ↔ 2 ^ 128 ≤ S.toNat := by
  rw [topExceeds, decide_eq_true_eq, Segments.toNat]
  omega

/-- The limb multiplier is multiplication modulo 2^128 with the flag of a product of 2^128 or more: what the segments
leave out has a weight of 2^128 or more (R60). -/
theorem mul128_eq (a b : Value) :
    mul128 a b = (BitVec.ofNat 128 (a.toNat * b.toNat), decide (2 ^ 128 ≤ a.toNat * b.toNat)) := by
  obtain ⟨-, hb1, hb2, hb3⟩ := accumulate_lt a b
  obtain ⟨hvalue, ht0, ht1, ht2⟩ := toNat_propagate hb1 hb2 hb3
  rw [toNat_mul_eq_accumulate, ← hvalue]
  refine Prod.ext (BitVec.eq_of_toNat_eq ?_) (Bool.eq_iff_iff.mpr ?_)
  · rw [mul128, toNat_combine, BitVec.toNat_ofNat, Nat.add_mul_mod_self_left]
  · rw [mul128, Bool.or_eq_true, any_violatesClass_iff_leftOut, topExceeds_iff ht0 ht1 ht2, decide_eq_true_eq]
    omega

end Sys2Proof.Machine

/-! ## The divider in closed form -/

namespace Sys2Proof.Machine

/-- The loop leaves at once when the remainder is below the divisor. -/
theorem divideLoop_of_lt {d rem : Value} (h : rem.toNat < d.toNat) (fuel : Nat) (q sd ad : Value) :
    divideLoop d fuel rem q sd ad = (q, rem) := by
  cases fuel with
  | zero => rfl
  | succ fuel => rw [divideLoop, valueLt_eq, decide_eq_true h, if_pos rfl]

/-- An iteration whose shifted divisor exceeds the remainder only shifts right (R66). -/
theorem divideLoop_succ_of_lt {d rem sd : Value} (hd : d.toNat ≤ rem.toNat) (hlt : rem.toNat < sd.toNat)
    (fuel : Nat) (q ad : Value) :
    divideLoop d (fuel + 1) rem q sd ad = divideLoop d fuel rem q (shiftRight128 sd 1) (shiftRight128 ad 1) := by
  simp [divideLoop, valueLt_eq, hd, hlt, sigbits_le_of_toNat_le hlt.le]

/-- An iteration whose shifted divisor goes into the remainder subtracts it, adds the shifted adder to the quotient and
shifts right (R66). -/
theorem divideLoop_succ_of_le {d rem sd : Value} (hd : d.toNat ≤ rem.toNat) (hle : sd.toNat ≤ rem.toNat)
    (hsub : (sub128 rem sd).1.toNat < sd.toNat) (fuel : Nat) (q ad : Value) :
    divideLoop d (fuel + 1) rem q sd ad = divideLoop d fuel (sub128 rem sd).1 (add128 q ad).1 (shiftRight128 sd 1)
      (shiftRight128 ad 1) := by
  simp [divideLoop, valueLt_eq, hd.not_gt, hle, sigbits_le_of_toNat_le hsub.le]

/-- What a division loop has to answer: the quotient so far and what the divisor still goes into the remainder, and
what then remains (R71). -/
def Divides (d rem q : Value) (answer : Value × Value) : Prop :=
  answer.1.toNat = q.toNat + rem.toNat / d.toNat ∧ answer.2.toNat = rem.toNat % d.toNat

theorem divideLoop_divides_of_lt {d rem : Value} (h : rem.toNat < d.toNat) (fuel : Nat) (q sd ad : Value) :
    Divides d rem q (divideLoop d fuel rem q sd ad) := by
  rw [divideLoop_of_lt h]
  exact ⟨by rw [Nat.div_eq_of_lt h, Nat.add_zero], (Nat.mod_eq_of_lt h).symm⟩

/-- Subtracting the shifted divisor and adding the shifted adder keeps what the loop has to answer: the invariant
`a = q * d + rem` of R66 by its quotient and its remainder. -/
theorem subtract_keeps_quotient {d rem q sd ad : Value} {k : Nat} (hd : 0 < d.toNat)
    (hsd : sd.toNat = d.toNat * 2 ^ k) (had : ad.toNat = 2 ^ k) (hle : sd.toNat ≤ rem.toNat)
    (hq : q.toNat + rem.toNat / d.toNat < 2 ^ 128) :
    (add128 q ad).1.toNat + (sub128 rem sd).1.toNat / d.toNat = q.toNat + rem.toNat / d.toNat ∧
      (sub128 rem sd).1.toNat % d.toNat = rem.toNat % d.toNat := by
  have hsub := toNat_sub128_of_le hle
  have hdiv : rem.toNat / d.toNat = (sub128 rem sd).1.toNat / d.toNat + ad.toNat := by
    rw [← hsub, hsd, Nat.add_mul_div_left _ _ hd, had]
  rw [hdiv] at hq
  have hfits : q.toNat + ad.toNat < 2 ^ 128 := (Nat.add_le_add_left (Nat.le_add_left ..) _).trans_lt hq
  refine ⟨?_, ?_⟩
  · rw [toNat_add128_of_lt hfits, hdiv, Nat.add_assoc, Nat.add_comm ad.toNat]
  · rw [← hsub, hsd, Nat.add_mul_mod_self_left]

/-- The loop divides: from the divisor and a 1 shifted left by `k`, with `rem < 2 * sd`, it adds to the quotient what
the divisor goes into the remainder, in at most `k + 1` iterations (R66, R70). -/
theorem divideLoop_divides {d : Value} (hd : 0 < d.toNat) {k fuel : Nat} (hfuel : k < fuel) {rem q sd ad : Value}
    (hsd : sd.toNat = d.toNat * 2 ^ k) (had : ad.toNat = 2 ^ k) (hrem : rem.toNat < 2 * sd.toNat)
    (hq : q.toNat + rem.toNat / d.toNat < 2 ^ 128) : Divides d rem q (divideLoop d fuel rem q sd ad) := by
  induction fuel generalizing k rem q sd ad with
  | zero => exact absurd hfuel (Nat.not_lt_zero k)
  | succ fuel ih =>
    have hnext : ∀ {rem q : Value}, rem.toNat < sd.toNat → q.toNat + rem.toNat / d.toNat < 2 ^ 128 →
        Divides d rem q (divideLoop d fuel rem q (shiftRight128 sd 1) (shiftRight128 ad 1)) := by
      intro rem q hlt hq
      cases k with
      | zero => exact divideLoop_divides_of_lt (by simpa [hsd] using hlt) ..
      | succ k =>
        rw [pow_succ] at had
        rw [pow_succ, ← Nat.mul_assoc] at hsd
        have hsd' : (shiftRight128 sd 1).toNat = d.toNat * 2 ^ k := by
          rw [toNat_shiftRight128, hsd]
          omega
        have had' : (shiftRight128 ad 1).toNat = 2 ^ k := by
          rw [toNat_shiftRight128, had]
          omega
        exact ih (Nat.lt_of_succ_lt_succ hfuel) hsd' had' (by omega) hq
    rcases Nat.lt_or_ge rem.toNat d.toNat with hlt | hge
    · exact divideLoop_divides_of_lt hlt ..
    rcases Nat.lt_or_ge rem.toNat sd.toNat with hlt | hle
    · rw [divideLoop_succ_of_lt hge hlt]
      exact hnext hlt hq
    · have hsub := toNat_sub128_of_le hle
      have hbelow : (sub128 rem sd).1.toNat < sd.toNat := by omega
      obtain ⟨hquot, hmod⟩ := subtract_keeps_quotient hd hsd had hle hq
      rw [divideLoop_succ_of_le hge hle hbelow, Divides, ← hquot, ← hmod]
      exact hnext hbelow (hquot ▸ hq)

/-- In the general case the shift brings the divisor to the dividend's width and no further: no bit is lost, and twice
the shifted divisor exceeds the dividend (R65). -/
theorem align_divisor {a d : Value} (hd : 0 < d.toNat) (hlt : d.toNat < a.toNat) :
    sigbits a - sigbits d ≤ 127 ∧ d.toNat * 2 ^ (sigbits a - sigbits d) < 2 ^ 128 ∧
      a.toNat < 2 * (d.toNat * 2 ^ (sigbits a - sigbits d)) := by
  have hle : sigbits d ≤ sigbits a := sigbits_le_of_toNat_le hlt.le
  have ha := sigbits_le_128 a
  obtain ⟨n, hn⟩ : ∃ n, sigbits d = n + 1 := Nat.exists_eq_add_one.mpr (by
    by_contra h0
    have hzero : d.toNat < 2 ^ 0 := sigbits_le_iff.mp (by omega)
    omega)
  refine ⟨by omega, ?_, ?_⟩
  · calc d.toNat * 2 ^ (sigbits a - sigbits d)
        < 2 ^ sigbits d * 2 ^ (sigbits a - sigbits d) :=
          Nat.mul_lt_mul_of_pos_right (lt_two_pow_sigbits d) (Nat.two_pow_pos _)
      _ = 2 ^ sigbits a := by rw [← pow_add, Nat.add_sub_cancel' hle]
      _ ≤ 2 ^ 128 := Nat.pow_le_pow_right two_pos ha
  · calc a.toNat
        < 2 ^ sigbits a := lt_two_pow_sigbits a
      _ = 2 * (2 ^ n * 2 ^ (sigbits a - sigbits d)) := by
          have hexp : n + (sigbits a - sigbits d) + 1 = sigbits a := by omega
          rw [← pow_add, ← pow_succ', hexp]
      _ ≤ 2 * (d.toNat * 2 ^ (sigbits a - sigbits d)) :=
          Nat.mul_le_mul_left 2 (Nat.mul_le_mul_right _ (two_pow_le_of_lt_sigbits (by omega)))

/-- Any fuel above the alignment shift lets the general case divide (R65, R66, R70). -/
theorem divideLoop_aligned_divides {a d : Value} (hd : 0 < d.toNat) (hlt : d.toNat < a.toNat) {fuel : Nat}
    (hfuel : sigbits a - sigbits d < fuel) :
    Divides d a 0#128 (divideLoop d fuel a 0#128 (shiftLeft128 d (sigbits a - sigbits d))
      (shiftLeft128 1#128 (sigbits a - sigbits d))) := by
  obtain ⟨hshift, hfits, hcovers⟩ := align_divisor hd hlt
  have hsd : (shiftLeft128 d (sigbits a - sigbits d)).toNat = d.toNat * 2 ^ (sigbits a - sigbits d) := by
    rw [toNat_shiftLeft128, Nat.mod_eq_of_lt hfits]
  refine divideLoop_divides hd hfuel hsd ?_ ?_ ?_
  · have hpow : 2 ^ (sigbits a - sigbits d) < 2 ^ 128 := Nat.pow_lt_pow_right Nat.one_lt_two (by omega)
    rw [toNat_shiftLeft128]
    simpa using Nat.mod_eq_of_lt hpow
  · rwa [hsd]
  · simpa using (Nat.div_le_self a.toNat d.toNat).trans_lt a.isLt

/-- Shift-and-subtract division with its fast paths is floor division (R64, R71). -/
theorem divrem128_eq {a d : Value} (hd : d ≠ 0#128) :
    divrem128 a d = (BitVec.ofNat 128 (a.toNat / d.toNat), BitVec.ofNat 128 (a.toNat % d.toNat)) := by
  have hdpos : 0 < d.toNat := Nat.pos_of_ne_zero fun h0 => hd (BitVec.eq_of_toNat_eq h0)
  simp only [divrem128, valueEq_eq, valueLt_eq, decide_eq_true_eq]
  split_ifs with hone heq hzero hlt
  · subst hone
    simp [Nat.mod_one]
  · subst heq
    simp [Nat.div_self hdpos]
  · subst hzero
    simp
  · simp [Nat.div_eq_of_lt hlt, Nat.mod_eq_of_lt hlt]
  · have hgt : d.toNat < a.toNat := by
      have hne : d.toNat ≠ a.toNat := fun h => heq (BitVec.eq_of_toNat_eq h.symm)
      omega
    obtain ⟨hquot, hrem⟩ := divideLoop_aligned_divides hdpos hgt (Nat.lt_succ_self _)
    refine Prod.ext (BitVec.eq_of_toNat_eq ?_) (BitVec.eq_of_toNat_eq ?_)
    · rw [divideGeneral, hquot]
      simp [Nat.mod_eq_of_lt ((Nat.div_le_self a.toNat d.toNat).trans_lt a.isLt)]
    · rw [divideGeneral, hrem]
      simp [Nat.mod_eq_of_lt ((Nat.mod_le a.toNat d.toNat).trans_lt a.isLt)]

end Sys2Proof.Machine

/-! ## Every operation answers its closed form -/

namespace Sys2Proof.Machine

open Sys2Proof.Safety

section respond
variable (s : State)

theorem respondOk_eq_onlyR {v w : Value} (h : v = w) : respondOk v 0#128 false s = .next (s.deliver (onlyR w)) := by
  rw [h, respondOk, onlyR]

/-- A reporting operation whose primitive wraps an exact result (R34). -/
theorem respondOk_eq_reporting {p : Value × Bool} {exact : Int} {overflows : Bool}
    (h : p = (BitVec.ofInt 128 exact, overflows)) :
    respondOk p.1 0#128 p.2 s = .next (s.deliver (reporting exact overflows)) := by
  rw [h, respondOk, reporting]

/-- The trapping operation over the same primitive (R34, R103). -/
theorem raiseOrRespond_eq_trapping {p : Value × Bool} {exact : Int} {overflows : Bool}
    (h : p = (BitVec.ofInt 128 exact, overflows)) :
    (if p.2 then raiseFault .overflow s else respondOk p.1 0#128 false s) =
      .next (s.deliver (trapping exact overflows)) := by
  subst h
  cases overflows <;> rfl

/-- A division raises DivideByZero for a zero divisor and answers its quotient or remainder otherwise (R63, R102). -/
theorem raiseOrRespond_eq_dividing {b q r2 : Value} {rsp : Response}
    (h : b ≠ 0#128 → Response.ok q r2 false = rsp) :
    (if valueEq b 0#128 then raiseFault .divideByZero s else respondOk q r2 false s) =
      .next (s.deliver (dividing b rsp)) := by
  rw [valueEq_eq, dividing]
  by_cases hb : b = 0#128
  · rw [decide_eq_true hb, if_pos rfl, if_pos hb, raiseFault]
  · rw [decide_eq_false hb, if_neg Bool.false_ne_true, if_neg hb, respondOk, h hb]

end respond

theorem add128_eq_ofInt (a b : Value) :
    add128 a b = (BitVec.ofInt 128 (a.toNat + b.toNat), decide (2 ^ 128 ≤ a.toNat + b.toNat)) := by
  rw [add128_eq, ← Int.natCast_add, BitVec.ofInt_natCast]

theorem mul128_eq_ofInt (a b : Value) :
    mul128 a b = (BitVec.ofInt 128 (a.toNat * b.toNat), decide (2 ^ 128 ≤ a.toNat * b.toNat)) := by
  rw [mul128_eq, ← Int.natCast_mul, BitVec.ofInt_natCast]

/-- SHL multiplies by the power of two of its amount (R82). -/
theorem shiftLeft128_shiftAmount (a b : Value) :
    shiftLeft128 a (shiftAmount b) = BitVec.ofNat 128 (a.toNat * 2 ^ (b.toNat % 128)) := by
  apply BitVec.eq_of_toNat_eq
  rw [toNat_shiftLeft128, shiftAmount_eq, BitVec.toNat_ofNat]

/-- SHR divides by the power of two of its amount (R83). -/
theorem shiftRight128_shiftAmount (a b : Value) :
    shiftRight128 a (shiftAmount b) = BitVec.ofNat 128 (a.toNat / 2 ^ (b.toNat % 128)) := by
  apply BitVec.eq_of_toNat_eq
  rw [toNat_shiftRight128, shiftAmount_eq, BitVec.toNat_ofNat,
    Nat.mod_eq_of_lt ((Nat.div_le_self a.toNat _).trans_lt a.isLt)]

theorem ofNat_sigbits (a : Value) : BitVec.ofNat 128 (sigbits a) =
    if a = 0#128 then 0#128 else BitVec.ofNat 128 (a.toNat.log2 + 1) := by
  rw [sigbits_eq, apply_ite (BitVec.ofNat 128)]

/-- CMPEQ's verdict as a value (R88). -/
theorem verdict_valueEq (a b : Value) : verdict (valueEq a b) = if a = b then 1#128 else 0#128 := by
  simp [verdict_eq, valueEq_eq]

/-- CMPLT's verdict as a value (R89). -/
theorem verdict_valueLt (a b : Value) : verdict (valueLt a b) = if a.toNat < b.toNat then 1#128 else 0#128 := by
  simp [verdict_eq, valueLt_eq]

/-- Every operation, as the unit computes it, answers its closed form, from every state and for all operands. -/
theorem exec_eq_closedForm (i : Instr) (s : State) : exec i s = .next (s.deliver (closedForm i)) := by
  cases i with
  | add a b => exact respondOk_eq_reporting s (add128_eq_ofInt a b)
  | sub a b => exact respondOk_eq_reporting s (sub128_eq a b)
  | mul a b => exact respondOk_eq_reporting (p := mul128 a b) s (mul128_eq_ofInt a b)
  | addT a b => exact raiseOrRespond_eq_trapping s (add128_eq_ofInt a b)
  | subT a b => exact raiseOrRespond_eq_trapping s (sub128_eq a b)
  | mulT a b => exact raiseOrRespond_eq_trapping s (mul128_eq_ofInt a b)
  | div a b =>
    exact raiseOrRespond_eq_dividing (q := (divrem128 a b).1) s fun hb => by rw [divrem128_eq hb, onlyR]
  | rem a b =>
    exact raiseOrRespond_eq_dividing (q := (divrem128 a b).2) s fun hb => by rw [divrem128_eq hb, onlyR]
  | divrem a b =>
    exact raiseOrRespond_eq_dividing (q := (divrem128 a b).1) (r2 := (divrem128 a b).2) s fun hb => by
      rw [divrem128_eq hb]
  | and a b => exact respondOk_eq_onlyR s (ofHalves_and a b)
  | or a b => exact respondOk_eq_onlyR s (ofHalves_or a b)
  | xor a b => exact respondOk_eq_onlyR s (ofHalves_xor a b)
  | not a _ => exact respondOk_eq_onlyR s (ofHalves_not a)
  | shl a b => exact respondOk_eq_onlyR s (shiftLeft128_shiftAmount a b)
  | shr a b => exact respondOk_eq_onlyR s (shiftRight128_shiftAmount a b)
  | bswap a _ => exact respondOk_eq_onlyR s (swapBytes_eq a)
  | sigb a _ => exact respondOk_eq_onlyR s (ofNat_sigbits a)
  | cmpeq a b => exact respondOk_eq_onlyR s (verdict_valueEq a b)
  | cmplt a b => exact respondOk_eq_onlyR s (verdict_valueLt a b)

/-- The unit answers every request, legal or not, as its closed form says (R25, R32). -/
theorem answerRequest_eq_answerOf (req : Request) (s : State) :
    answerRequest req s = .next (s.deliver (answerOf req)) := by
  unfold answerRequest answerOf
  cases decode req with
  | ok i => exact exec_eq_closedForm i s
  | error _ => rfl

end Sys2Proof.Machine

/-! ## Every step keeps the invariant -/

namespace Sys2Proof.Safety

open Sys2Proof.Machine

section outcome
variable {s : State}

theorem outcomeSound_running (h : s.run = .running) : OutcomeSound s ↔ s.answered.all isOk = true := by
  rw [OutcomeSound, h]

theorem outcomeSound_final (h : s.run = .final) :
    OutcomeSound s ↔ s.answered.all isOk = true ∧ s.program = [] := by
  rw [OutcomeSound, h]

theorem outcomeSound_faulted {c : Fault} (h : s.run = .faulted c) :
    OutcomeSound s ↔ ∃ before : List Response, s.answered = before ++ [.fault c] ∧ before.all isOk = true := by
  rw [OutcomeSound, h]

theorem outcomeSound_cutOff (h : s.run = .cutOff) :
    OutcomeSound s ↔ s.answered.all isOk = true ∧ s.issued.length = s.answered.length + 1 := by
  rw [OutcomeSound, h]

end outcome

namespace Inv
variable {s : State} (hinv : Inv s)
include hinv

/-- A run under way has had no fault (R105). -/
theorem all_isOk_of_running (hrun : s.run = .running) : s.answered.all isOk = true :=
  (outcomeSound_running hrun).mp hinv.outcomeSound

/-- With a transaction outstanding one request is without its response (R24). -/
theorem length_issued_of_outstanding {req : Request} (hreq : s.outstanding = some req) :
    s.issued.length = s.answered.length + 1 := by
  obtain ⟨-, hlast⟩ := hinv.outstandingIsLast req hreq
  have hlen : s.answered.length = (s.issued.take s.answered.length).length := by
    simpa using congrArg List.length hinv.inOrder
  rw [hlast, List.length_append, ← hlen, List.length_singleton]

/-- The invariant does not speak of the reset input and the response record. -/
theorem of_eq_fields {t : State} (ho : t.outstanding = s.outstanding) (hp : t.program = s.program)
    (hi : t.issued = s.issued) (ha : t.answered = s.answered) (hr : t.run = s.run) : Inv t := by
  have houtcome : OutcomeSound t := by
    rw [OutcomeSound, hr, ha, hi, hp]
    exact hinv.outcomeSound
  constructor
  · rw [ha, hi]
    exact hinv.inOrder
  · rw [ho, hr, hi, ha]
    exact hinv.outstandingIsLast
  · rw [ho, hr, hi, ha]
    exact hinv.allAnswered
  · exact houtcome
  · rw [hr, hi, hp]
    exact hinv.linesBound

/-- `Reset` that discards a transaction cuts its run off, one request short of a response; otherwise it changes nothing
that the invariant speaks of (R121). -/
theorem takeReset : Inv s.takeReset := by
  cases ho : s.outstanding with
  | none => exact hinv.of_eq_fields (by simp [ho]) rfl rfl rfl (by simp [ho])
  | some req =>
    obtain ⟨hrun, -⟩ := hinv.outstandingIsLast req ho
    have hcut : s.takeReset.run = .cutOff := by simp [ho]
    exact
      { inOrder := hinv.inOrder
        outstandingIsLast := fun _ h => nomatch h
        allAnswered := fun _ h => absurd hcut h
        outcomeSound := (outcomeSound_cutOff hcut).mpr
          ⟨hinv.all_isOk_of_running hrun, hinv.length_issued_of_outstanding ho⟩
        linesBound := fun h => nomatch hcut.symm.trans h }

/-- What a response makes of the outcome of the run under way is what the responses with it at their end say (R105). -/
theorem outcomeSound_deliver (hrun : s.run = .running) (rsp : Response) : OutcomeSound (s.deliver rsp) := by
  have hok := hinv.all_isOk_of_running hrun
  cases rsp with
  | ok r r2 ovf =>
    refine (outcomeSound_running (by simp [hrun])).mpr ?_
    rw [deliver_answered, List.all_append, hok]
    rfl
  | fault c => exact (outcomeSound_faulted (by simp)).mpr ⟨s.answered, deliver_answered _ s, hok⟩

/-- The outstanding transaction answered by its closed form is one more request with its response (R24, R25). -/
theorem deliver_answerOf {req : Request} (hreq : s.outstanding = some req) : Inv (s.deliver (answerOf req)) := by
  obtain ⟨hrun, hlast⟩ := hinv.outstandingIsLast req hreq
  have hlen : s.issued.length = (s.deliver (answerOf req)).answered.length := by
    simpa using hinv.length_issued_of_outstanding hreq
  constructor
  · rw [← hlen, deliver_issued, List.take_length, hlast, List.map_append, ← hinv.inOrder]
    rfl
  · exact fun _ h => nomatch h
  · exact fun _ _ => hlen
  · exact hinv.outcomeSound_deliver hrun _
  · exact fun _ => hinv.linesBound hrun

/-- A run with no line left becomes final (R105). -/
theorem finish (ho : s.outstanding = none) (hrun : s.run = .running) (hp : s.program = []) :
    Inv { s with run := .final } :=
  { inOrder := hinv.inOrder
    outstandingIsLast := fun _ h => nomatch ho.symm.trans h
    allAnswered := fun _ _ => hinv.allAnswered ho (by simp [hrun])
    outcomeSound := (outcomeSound_final rfl).mpr ⟨hinv.all_isOk_of_running hrun, hp⟩
    linesBound := fun h => nomatch h }

/-- The next line's request becomes the last one and is outstanding; the lines after it are bound with it (R24, R38). -/
theorem issue {l : Line} {rest : List Line} (req : Request) (ho : s.outstanding = none) (hrun : s.run = .running)
    (hp : s.program = l :: rest) :
    Inv { s with program := rest, outstanding := some req, issued := s.issued ++ [req] } := by
  have hlen : s.issued.length = s.answered.length := hinv.allAnswered ho (by simp [hrun])
  have htake : (s.issued ++ [req]).take s.answered.length = s.issued := List.take_left' hlen
  have hbound := hinv.linesBound hrun
  rw [hp, programBound, Bool.and_eq_true] at hbound
  constructor
  · rw [htake, ← List.take_of_length_le hlen.le]
    exact hinv.inOrder
  · rintro _ ⟨rfl⟩
    exact ⟨hrun, by rw [htake]⟩
  · exact fun h => nomatch h
  · exact (outcomeSound_running (by exact hrun)).mpr (hinv.all_isOk_of_running hrun)
  · intro _
    rw [List.length_append]
    exact hbound.2

/-- The host's move keeps the invariant. -/
theorem hostMove {t : State} (ho : s.outstanding = none) (hmove : s.hostMove = .next t) : Inv t := by
  rcases hostMove_next hmove with ⟨hrun, hp, rfl⟩ | ⟨l, rest, req, hrun, hp, -, -, rfl⟩ | ⟨-, rfl⟩
  · exact hinv.finish ho hrun hp
  · exact hinv.issue req ho hrun hp
  · exact hinv

end Inv

/-- Settles O58: by the cases of `step_next`, a step takes `Reset`, answers the outstanding request by its closed form
(`answerRequest_eq_answerOf`) or lets the host move, and each keeps the invariant. -/
theorem stepKeepsInvariant : Obligations.StepKeepsInvariant := by
  intro s t hinv hstep
  rcases step_next hstep with ⟨-, rfl⟩ | ⟨req, rsp, -, hreq, hanswer, rfl⟩ | ⟨-, ho, hmove⟩
  · exact hinv.takeReset
  · have hrsp : rsp = answerOf req :=
      deliver_inj.mp (Host.Outcome.next.inj ((hanswer s).symm.trans (answerRequest_eq_answerOf req s)))
    rw [hrsp]
    exact hinv.deliver_answerOf hreq
  · exact hinv.hostMove ho hmove

end Sys2Proof.Safety

/-! ## The request word and the opcode map, both ways -/

namespace Sys2Proof

open Sys2Proof.Machine

/-- The three fields of a request word laid side by side are the word again (R30). -/
theorem toWord_ofWord (w : BitVec 264) : (Request.ofWord w).toWord = w := by
  have hopca : w.extractLsb' 256 8 ++ w.extractLsb' 128 128 = w.extractLsb' 128 136 :=
    BitVec.extractLsb'_append_extractLsb'_eq_extractLsb' rfl
  have hword : w.extractLsb' 128 136 ++ w.extractLsb' 0 128 = w.extractLsb' 0 264 :=
    BitVec.extractLsb'_append_extractLsb'_eq_extractLsb' rfl
  rw [Request.toWord, Request.ofWord, hopca, hword, BitVec.extractLsb'_eq_self]

/-- Each field of a request is read back from its place in the word (R30). -/
theorem ofWord_toWord (req : Request) : Request.ofWord req.toWord = req := by
  have hopc : req.toWord.extractLsb' 256 8 = req.opc := by
    rw [Request.toWord, BitVec.extractLsb'_append_eq_of_le (by decide), BitVec.extractLsb'_append_eq_left]
  have ha : req.toWord.extractLsb' 128 128 = req.a := by
    rw [Request.toWord, BitVec.extractLsb'_append_eq_of_le le_rfl, BitVec.extractLsb'_append_eq_right]
  have hb : req.toWord.extractLsb' 0 128 = req.b := BitVec.extractLsb'_append_eq_right
  rw [Request.ofWord, hopc, ha, hb]

/-- A word is the word of the request it holds and of no other (R30). -/
theorem ofWord_eq_iff {w : BitVec 264} {req : Request} : Request.ofWord w = req ↔ req.toWord = w :=
  ⟨fun h => h ▸ toWord_ofWord w, fun h => h ▸ ofWord_toWord req⟩

/-- The opcode map is read back from what it writes, row by row, whatever the operands are (R33, R35). -/
theorem decode_encode (i : Instr) : decode (encode i) = .ok i := by
  cases i <;> rfl

/-- A request that decodes has the opcode of its row and its operands taken whole, so the instruction writes it again
(R33, R35). -/
theorem encode_of_decode {req : Request} {i : Instr} (h : decode req = .ok i) : encode i = req := by
  obtain ⟨opc, a, b⟩ := req
  unfold decode at h
  split at h
  case h_20 => cases h
  all_goals
    rename_i hopc
    cases h
    exact congrArg (Request.mk · a b) hopc.symm

/-- The decoder accepts a request as `i` exactly when it is the request of `i`. -/
theorem decode_eq_ok_iff {req : Request} {i : Instr} : decode req = .ok i ↔ encode i = req :=
  ⟨encode_of_decode, fun h => h ▸ decode_encode i⟩

/-- Settles O8: the request word and the opcode map are both read back from what is written. -/
theorem decodeAndEncodeAgree : Obligations.DecodeAndEncodeAgree := by
  intro w i
  rw [decodeWord, decode_eq_ok_iff, eq_comm, ofWord_eq_iff, encodeWord]

/-- Settles O9: by `decode_eq_ok_iff`, what is left is that each word holds the request its instruction encodes to. -/
theorem specWordsDecode : Obligations.SpecWordsDecode := by
  simp only [Obligations.SpecWordsDecode, decodeWord, decode_eq_ok_iff]
  simp [encode, Request.ofWord]

/-! ## The places of the fields in the request and the response word -/

/-- Bit `i` of a field is the bit of the word at the field's place plus `i`. -/
theorem getLsbD_extractLsb'_of_lt {n len i : Nat} (w : BitVec n) (start : Nat) (hi : i < len) :
    (w.extractLsb' start len).getLsbD i = w.getLsbD (start + i) := by
  rw [BitVec.getLsbD_extractLsb', decide_eq_true hi, Bool.true_and]

/-- The high half of a 128-bit field has its place 64 above the field's (R10, R30). -/
theorem getLsbD_high_extractLsb' {n i : Nat} (w : BitVec n) (start : Nat) (hi : i < 64) :
    (Value.high (w.extractLsb' start 128)).getLsbD i = w.getLsbD (start + 64 + i) := by
  rw [Value.high, getLsbD_extractLsb'_of_lt _ _ hi, getLsbD_extractLsb'_of_lt _ _ (by omega), Nat.add_assoc]

/-- The low half of a 128-bit field has the field's place (R10, R30). -/
theorem getLsbD_low_extractLsb' {n i : Nat} (w : BitVec n) (start : Nat) (hi : i < 64) :
    (Value.low (w.extractLsb' start 128)).getLsbD i = w.getLsbD (start + i) := by
  rw [Value.low, getLsbD_extractLsb'_of_lt _ _ hi, getLsbD_extractLsb'_of_lt _ _ (by omega), Nat.zero_add]

/-- Settles O5: the word and the request are read back from each other, and each field's bits stand at its place. -/
theorem requestWordFields : Obligations.RequestWordFields := by
  refine ⟨fun w => ⟨toWord_ofWord w, ?_, ?_, ?_, ?_, ?_⟩, ofWord_toWord⟩ <;> intro i hi
  · exact getLsbD_extractLsb'_of_lt w 256 hi
  · exact getLsbD_high_extractLsb' w 128 hi
  · exact getLsbD_low_extractLsb' w 128 hi
  · exact (getLsbD_high_extractLsb' w 0 hi).trans (by rw [Nat.zero_add])
  · exact (getLsbD_low_extractLsb' w 0 hi).trans (by rw [Nat.zero_add])

/-- Settles O6: the word of an OK response is its four fields side by side, each read back at its place. -/
theorem responseWordFields : Obligations.ResponseWordFields := by
  refine ⟨fun r r2 ovf => ⟨_, rfl, ?_, ?_, ?_, ?_, rfl⟩, fun c => ⟨rfl, rfl⟩⟩
  · rw [BitVec.extractLsb'_append_eq_of_le (by decide), BitVec.extractLsb'_append_eq_of_le (by decide),
      BitVec.extractLsb'_append_eq_left, Response.status]
  · rw [BitVec.extractLsb'_append_eq_of_le (by decide), BitVec.extractLsb'_append_eq_of_le (by decide),
      BitVec.extractLsb'_append_eq_right]
  · rw [BitVec.extractLsb'_append_eq_of_le le_rfl, BitVec.extractLsb'_append_eq_right]
  · rw [BitVec.extractLsb'_append_eq_right]

/-! ## The opcode byte -/

/-- Every instruction's opcode byte has the shape R34 gives it and is in the opcode map. -/
theorem opcodeShape (i : Instr) : Laws.OpcodeShape.Statement i := by
  cases i with
  | add a b => exact Laws.OpcodeShape.add a b
  | sub a b => exact Laws.OpcodeShape.sub a b
  | mul a b => exact Laws.OpcodeShape.mul a b
  | div a b => exact Laws.OpcodeShape.div a b
  | rem a b => exact Laws.OpcodeShape.rem a b
  | divrem a b => exact Laws.OpcodeShape.divrem a b
  | and a b => exact Laws.OpcodeShape.and a b
  | or a b => exact Laws.OpcodeShape.or a b
  | xor a b => exact Laws.OpcodeShape.xor a b
  | not a b => exact Laws.OpcodeShape.not a b
  | shl a b => exact Laws.OpcodeShape.shl a b
  | shr a b => exact Laws.OpcodeShape.shr a b
  | bswap a b => exact Laws.OpcodeShape.bswap a b
  | sigb a b => exact Laws.OpcodeShape.sigb a b
  | cmpeq a b => exact Laws.OpcodeShape.cmpeq a b
  | cmplt a b => exact Laws.OpcodeShape.cmplt a b
  | addT a b => exact Laws.OpcodeShape.addT a b
  | subT a b => exact Laws.OpcodeShape.subT a b
  | mulT a b => exact Laws.OpcodeShape.mulT a b

/-- A request that decodes has the opcode shape of R34. -/
theorem opcodeShape_of_decode {req : Request} {i : Instr} (h : decode req = .ok i) :
    Laws.OpcodeShape.OfByte req.opc :=
  encode_of_decode h ▸ opcodeShape i

/-- The decoder refuses only a byte that is not in the opcode map: it has a row for each byte of it (R33, R36). -/
theorem not_mem_opcodeMap_of_decode_error {req : Request} {e : Reject} (h : decode req = .error e) :
    req.opc ∉ opcodeMap.map Prod.fst := by
  unfold decode at h
  split at h
  case h_20 => simp_all [opcodeMap]
  all_goals cases h

/-- A request is refused exactly when its opcode is not in the opcode map (R36). -/
theorem decode_error_iff {req : Request} :
    (∃ e, decode req = .error e) ↔ req.opc ∉ opcodeMap.map Prod.fst := by
  refine ⟨fun ⟨_, h⟩ => not_mem_opcodeMap_of_decode_error h, fun hnot => ?_⟩
  cases h : decode req with
  | error e => exact ⟨e, rfl⟩
  | ok i =>
    obtain ⟨-, -, hmem⟩ := opcodeShape_of_decode h
    exact absurd hmem hnot

/-- The bytes that the opcode map leaves out, as the ranges of R36. -/
theorem not_mem_opcodeMap_iff (opc : Byte) : opc ∉ opcodeMap.map Prod.fst ↔
    opc = 0x00#8 ∨ opc = 0x07#8 ∨ (0x12 ≤ opc.toNat ∧ opc.toNat ≤ 0x20) ∨
      (0x24 ≤ opc.toNat ∧ opc.toNat ≤ 0x3F) ∨ 0x40 ≤ opc.toNat := by
  simp only [opcodeMap, List.map_append, List.map_cons, List.map_nil, List.mem_append, List.mem_cons,
    List.not_mem_nil, or_false, ← BitVec.toNat_inj, BitVec.toNat_ofNat]
  omega

/-- Settles O11: the refused opcodes are those outside the opcode map, and these are the ranges of R36. -/
theorem illegalOpcodeRanges : Obligations.IllegalOpcodeRanges :=
  fun req => decode_error_iff.trans (not_mem_opcodeMap_iff req.opc)

end Sys2Proof

/-! ## The two variants of an operation, the ignored bits and CMPGT -/

namespace Sys2Proof.Machine

/-- What a trapping operation makes of its primitive's pair: the fault where the flag is set, the result where it is not
(R34, R103). -/
theorem raiseOrRespond_eq_deliver (r : Value) (o : Bool) (s : State) :
    (if o then raiseFault .overflow s else respondOk r 0#128 false s) =
      .next (s.deliver (if o then .fault .overflow else .ok r 0#128 false)) := by
  cases o <;> rfl

/-- The opcodes of ADD.T, SUB.T and MUL.T are those of ADD, SUB and MUL with the T bit set (R34). -/
theorem trapping_opcodes :
    0x21#8 = 0x01#8 ||| 0x20#8 ∧ 0x22#8 = 0x02#8 ||| 0x20#8 ∧ 0x23#8 = 0x03#8 ||| 0x20#8 := by
  decide

/-- Settles O10: the opcode's fields by `opcodeShape`, and both variants from the one pair of their primitive. -/
theorem trappingVariantsMirrorReporting : Obligations.TrappingVariantsMirrorReporting := by
  refine ⟨fun req i h => ?_, fun _ _ => trapping_opcodes, fun a b s => ⟨?_, ?_, ?_⟩⟩
  · obtain ⟨hupper, htrapping, -⟩ := opcodeShape_of_decode h
    exact ⟨hupper, fun hT => by simpa using htrapping hT⟩
  · exact ⟨(add128 a b).1, (add128 a b).2, rfl, raiseOrRespond_eq_deliver ..⟩
  · exact ⟨(sub128 a b).1, (sub128 a b).2, rfl, raiseOrRespond_eq_deliver ..⟩
  · exact ⟨(mul128 a b).1, (mul128 a b).2, rfl, raiseOrRespond_eq_deliver ..⟩

/-- The shift amount reads only the low 7 bits (R81). -/
theorem shiftAmount_congr {b b' : Value} (h : b.extractLsb' 0 7 = b'.extractLsb' 0 7) :
    shiftAmount b = shiftAmount b' :=
  congrArg BitVec.toNat h

/-- Settles O12: the one-operand meanings do not name `b`, and the shifts read it through `shiftAmount` alone. -/
theorem ignoredOperandBits : Obligations.IgnoredOperandBits := by
  refine fun a b b' s => ⟨rfl, rfl, rfl, fun h => ?_⟩
  simp only [exec, execShl, execShr, shiftAmount_congr h, and_self]

/-- Settles O13: CMPLT's closed form with the operands exchanged, and the request its line forms. -/
theorem cmpgtIsCmpltExchanged : Obligations.CmpgtIsCmpltExchanged :=
  ⟨fun a b s => exec_eq_closedForm (.cmplt b a) s, fun _ _ _ _ _ ha hb => lineRequest_eq_some.mpr ⟨rfl, hb, ha⟩⟩

/-! ## The step that answers a request and the step that issues one -/

/-- A request that decodes is answered by its operation's meaning (R32). -/
theorem answerRequest_of_ok {req : Request} {i : Instr} (h : decode req = .ok i) (s : State) :
    answerRequest req s = exec i s := by
  simp only [answerRequest, h]

/-- A request that decodes to nothing is answered by IllegalOp (R32, R101). -/
theorem answerRequest_of_error {req : Request} {e : Reject} (h : decode req = .error e) (s : State) :
    answerRequest req s = .next (s.deliver (.fault .illegalOp)) := by
  simp only [answerRequest, h, execIllegal, raiseFault]

/-- Settles O1: the step is the unit's answer (`step_outstanding`), which is by the decoded request. -/
theorem stepAnswersTheDecodedRequest : Obligations.StepAnswersTheDecodedRequest := by
  intro s req hreset hreq
  rw [step_outstanding hreset hreq]
  exact ⟨fun i h => answerRequest_of_ok h s, fun e h => answerRequest_of_error h s⟩

/-- With no `Reset` asserted and no transaction outstanding, the step is the host's move (R105). -/
theorem step_of_idle {s : State} (hreset : s.resetAsserted = false) (ho : s.outstanding = none) :
    step s = s.hostMove := by
  simp [step, hreset, ho]

/-- In a run with a line left whose operands are bound, the host presents its request (R38, R105). -/
theorem hostMove_of_line {s : State} {l : Line} {rest : List Line} {req : Request} (hrun : s.run = .running)
    (hp : s.program = l :: rest) (hl : lineRequest s.answered l = some req) :
    s.hostMove = State.accept req { s with program := rest } := by
  simp only [State.hostMove, hrun, hp, hl]

/-- In a run with no line left, the host finds it final (R105). -/
theorem hostMove_of_nil {s : State} (hrun : s.run = .running) (hp : s.program = []) :
    s.hostMove = .next { s with run := .final } := by
  simp only [State.hostMove, hrun, hp]

/-- Settles O53: the idle step is the host's move, whose request the idle unit accepts (`accept_idle`). -/
theorem hostIssuesTheNextLine : Obligations.HostIssuesTheNextLine := by
  intro s hreset ho hrun
  rw [step_of_idle hreset ho]
  refine ⟨fun l rest a b hp ha hb => ?_, hostMove_of_nil hrun⟩
  rw [hostMove_of_line hrun hp (req := ⟨l.opc, a, b⟩) (lineRequest_eq_some.mpr ⟨rfl, ha, hb⟩)]
  exact accept_idle ho

end Sys2Proof.Machine

/-! ## The significant-bit count, and operations whose exact result fits -/

namespace Sys2Proof

@[simp] theorem toNat_ofHalf (n : Half) : (Value.ofHalf n).toNat = n.toNat := by
  rw [Value.ofHalf, toNat_ofHalves, BitVec.toNat_zero, Nat.zero_mul, Nat.zero_add]

namespace Machine

open Sys2Proof.Safety

/-! The set and clear bits of a value around its count, and the count by halves (R42). -/

theorem getLsbD_of_sigbits_le {v : Value} {i : Nat} (h : sigbits v ≤ i) : v.getLsbD i = false :=
  Nat.testBit_eq_false_of_lt (sigbits_le_iff.mp h)

/-- The bit just below the significant-bit count is set (R42). -/
theorem getLsbD_sigbits_sub_one {v : Value} (h : v ≠ 0#128) : v.getLsbD (sigbits v - 1) = true := by
  have hv : v.toNat ≠ 0 := fun h0 => h (BitVec.eq_of_toNat_eq h0)
  rw [sigbits_eq, if_neg h, Nat.add_sub_cancel]
  exact Nat.testBit_log2 hv

theorem sigbits_pos {v : Value} (h : v ≠ 0#128) : 1 ≤ sigbits v := by
  rw [sigbits_eq, if_neg h]
  exact Nat.le_add_left ..

/-- A value with a nonzero high half fits in `n` bits when its high half fits in the bits above the low one. -/
theorem sigbits_of_high_ne_zero {v : Value} (h : v.high ≠ 0#64) :
    sigbits v = 64 + sigbits (Value.ofHalf v.high) := by
  have hpos : v.high.toNat ≠ 0 := fun h0 => h (BitVec.eq_of_toNat_eq h0)
  rw [toNat_high] at hpos
  refine eq_of_forall_ge_iff fun n => ?_
  rw [sigbits_le_iff]
  rcases Nat.lt_or_ge n 64 with hn | hn
  · have hpow : 2 ^ n ≤ 2 ^ 64 := Nat.pow_le_pow_right (by decide) hn.le
    omega
  · obtain ⟨k, rfl⟩ := Nat.exists_eq_add_of_le hn
    rw [Nat.add_le_add_iff_left, sigbits_le_iff, toNat_ofHalf, toNat_high,
      Nat.div_lt_iff_lt_mul (by decide), Nat.pow_add, Nat.mul_comm]

/-- A value with a zero high half is its low half, zero-extended. -/
theorem ofHalf_low_of_high_eq_zero {v : Value} (h : v.high = 0#64) : Value.ofHalf v.low = v := by
  rw [Value.ofHalf, ← h, ofHalves_high_low]

/-- Settles O42: the set and clear bits, the least width (`sigbits_le_iff`), and the two cases of the high half. -/
theorem sigbitsIsLeastWidth : Obligations.SigbitsIsLeastWidth := by
  refine fun v => ⟨?_, fun hv => ⟨sigbits_pos hv, getLsbD_sigbits_sub_one hv⟩, fun _ => getLsbD_of_sigbits_le,
    sigbits_le_128 v, fun _ => sigbits_le_iff.symm, ?_⟩
  · exact fun hv => (sigbits_eq v).trans (if_pos hv)
  · split_ifs with hhigh
    · exact sigbits_of_high_ne_zero hhigh
    · rw [ofHalf_low_of_high_eq_zero (not_not.mp hhigh)]

/-- The count fits in a value whole. -/
theorem toNat_ofNat_sigbits (v : Value) : (BitVec.ofNat 128 (sigbits v)).toNat = sigbits v := by
  rw [BitVec.toNat_ofNat, Nat.mod_eq_of_lt ((sigbits_le_128 v).trans_lt (by decide))]

/-- A value below 2^64 has a zero high half, and its low half is its number. -/
theorem halves_of_toNat_lt {v : Value} (h : v.toNat < 2 ^ 64) : v.high = 0#64 ∧ v.low.toNat = v.toNat := by
  refine ⟨BitVec.eq_of_toNat_eq ?_, ?_⟩
  · rw [toNat_high, Nat.div_eq_of_lt h, BitVec.toNat_zero]
  · rw [toNat_low, Nat.mod_eq_of_lt h]

/-- Settles O43: SIGB answers the count, which is at most 128 and so lies in the low half. -/
theorem sigbReturnsSignificantBits : Obligations.SigbReturnsSignificantBits := by
  intro a b s
  have hr := toNat_ofNat_sigbits a
  have hle := sigbits_le_128 a
  obtain ⟨hhigh, hlow⟩ := halves_of_toNat_lt (v := BitVec.ofNat 128 (sigbits a)) (by omega)
  refine ⟨decode_encode (.sigb a b), BitVec.ofNat 128 (sigbits a), rfl, hr, hhigh, ?_, fun n => ?_⟩
  · rwa [hlow, hr]
  · rw [hr, sigbits_le_iff]

/-! Sums and products that fit are answered exactly (R34, R52, R61). -/

/-- A reporting operation whose exact result is a natural number that fits answers it with no overflow (R34). -/
theorem reporting_of_lt {n : Nat} (h : n < 2 ^ 128) :
    reporting n (decide (2 ^ 128 ≤ n)) = onlyR (BitVec.ofNat 128 n) := by
  rw [reporting, onlyR, decide_eq_false h.not_ge, BitVec.ofInt_natCast]

theorem exec_add_of_lt {a b : Value} (h : a.toNat + b.toNat < 2 ^ 128) (s : State) :
    exec (.add a b) s = .next (s.deliver (onlyR (BitVec.ofNat 128 (a.toNat + b.toNat)))) := by
  rw [exec_eq_closedForm, closedForm, ← Int.natCast_add, reporting_of_lt h]

theorem exec_mul_of_lt {a b : Value} (h : a.toNat * b.toNat < 2 ^ 128) (s : State) :
    exec (.mul a b) s = .next (s.deliver (onlyR (BitVec.ofNat 128 (a.toNat * b.toNat)))) := by
  rw [exec_eq_closedForm, closedForm, ← Int.natCast_mul, reporting_of_lt h]

/-- A value below 2^65 has at most one bit in its high half. -/
theorem high_eq_zero_or_one_of_toNat_lt {v : Value} (h : v.toNat < 2 ^ 65) : v.high = 0#64 ∨ v.high = 1#64 := by
  rw [← BitVec.toNat_inj, ← BitVec.toNat_inj, toNat_high, BitVec.toNat_ofNat, BitVec.toNat_ofNat]
  omega

/-- Settles O21: the sum of two halves is below 2^65 and their product below 2^128, so both fit; the difference has the
closed form of SUB. -/
theorem zeroExtendedHalvesAreExact : Obligations.ZeroExtendedHalvesAreExact := by
  intro m n s
  have hm := m.isLt
  have hn := n.isLt
  have hsum : m.toNat + n.toNat < 2 ^ 65 := by omega
  have hprod : m.toNat * n.toNat < 2 ^ 128 := (Nat.mul_lt_mul'' hm hn).trans_eq (Nat.pow_add 2 64 64).symm
  refine ⟨⟨BitVec.ofNat 128 (m.toNat + n.toNat), ?_, ?_⟩, ⟨BitVec.ofNat 128 (m.toNat * n.toNat), ?_, ?_⟩, ?_⟩
  · simpa only [onlyR, toNat_ofHalf] using
      exec_add_of_lt (a := .ofHalf m) (b := .ofHalf n) (by simp only [toNat_ofHalf]; omega) s
  · have hr : (BitVec.ofNat 128 (m.toNat + n.toNat)).toNat = m.toNat + n.toNat := by
      rw [BitVec.toNat_ofNat, Nat.mod_eq_of_lt (by omega)]
    exact ⟨hr, high_eq_zero_or_one_of_toNat_lt (hr.trans_lt hsum)⟩
  · simpa only [onlyR, toNat_ofHalf] using
      exec_mul_of_lt (a := .ofHalf m) (b := .ofHalf n) (by simpa only [toNat_ofHalf] using hprod) s
  · rw [BitVec.toNat_ofNat, Nat.mod_eq_of_lt hprod]
  · have hsub := exec_eq_closedForm (.sub (.ofHalf m) (.ofHalf n)) s
    simp only [closedForm, reporting, toNat_ofHalf] at hsub
    exact ⟨_, hsub⟩

end Machine
end Sys2Proof

/-! ## Addition and subtraction -/

namespace Sys2Proof.Machine

open Sys2Proof.Safety

/-! What the four operations answer, over the pair of their primitive (R34). -/

section answers
variable (a b : Value) (s : State)

theorem exec_add : exec (.add a b) s = .next (s.deliver (.ok (add128 a b).1 0#128 (add128 a b).2)) := rfl

theorem exec_sub : exec (.sub a b) s = .next (s.deliver (.ok (sub128 a b).1 0#128 (sub128 a b).2)) := rfl

theorem exec_addT : exec (.addT a b) s =
    .next (s.deliver (if (add128 a b).2 then .fault .overflow else .ok (add128 a b).1 0#128 false)) :=
  raiseOrRespond_eq_deliver ..

theorem exec_subT : exec (.subT a b) s =
    .next (s.deliver (if (sub128 a b).2 then .fault .overflow else .ok (sub128 a b).1 0#128 false)) :=
  raiseOrRespond_eq_deliver ..

end answers

/-- `sub128_eq` with the wrapped difference as a natural number. -/
theorem sub128_eq_ofNat (a b : Value) :
    sub128 a b = (BitVec.ofNat 128 (a.toNat + 2 ^ 128 - b.toNat), decide (a.toNat < b.toNat)) := by
  have hb := b.isLt
  rw [sub128_eq]
  refine Prod.ext (BitVec.eq_of_toNat_eq ?_) rfl
  rw [BitVec.toNat_ofInt, BitVec.toNat_ofNat]
  omega

theorem add128_overflow_iff (a b : Value) : (add128 a b).2 = true ↔ 2 ^ 128 ≤ a.toNat + b.toNat := by
  rw [add128_eq, decide_eq_true_iff]

theorem sub128_borrow_iff (a b : Value) : (sub128 a b).2 = true ↔ a.toNat < b.toNat := by
  rw [sub128_eq, decide_eq_true_iff]

/-- Settles O14: ADD answers the pair of `add128`, which `add128_eq` gives. -/
theorem addReturnsWrappedSumAndOverflow : Obligations.AddReturnsWrappedSumAndOverflow :=
  fun a b s => ⟨decode_encode (.add a b), by rw [exec_add, add128_eq]⟩

/-- Settles O17: SUB answers the pair of `sub128`, which `sub128_eq_ofNat` gives. -/
theorem subReturnsWrappedDifferenceAndBorrow : Obligations.SubReturnsWrappedDifferenceAndBorrow :=
  fun a b s => ⟨decode_encode (.sub a b), by rw [exec_sub, sub128_eq_ofNat]⟩

/-- Settles O16: ADD.T raises on `add128`'s flag, which is set exactly when the sum does not fit. -/
theorem addTrappingFaultsOnOverflow : Obligations.AddTrappingFaultsOnOverflow := by
  refine fun a b s => ⟨decode_encode (.addT a b), fun hfits => ?_, fun hover => ?_⟩ <;> rw [exec_addT, add128_eq]
  · rw [decide_eq_false hfits.not_ge, if_neg Bool.false_ne_true]
  · rw [decide_eq_true hover, if_pos rfl]

/-- Settles O19: SUB.T raises on `sub128`'s borrow; without one the difference is exact (`toNat_sub128_of_le`). -/
theorem subTrappingFaultsOnUnderflow : Obligations.SubTrappingFaultsOnUnderflow := by
  refine fun a b s => ⟨decode_encode (.subT a b), fun hle => ?_, fun hlt => ?_⟩ <;> rw [exec_subT]
  · have hdiff : (sub128 a b).1 = BitVec.ofNat 128 (a.toNat - b.toNat) := by
      rw [← toNat_sub128_of_le hle, Nat.add_sub_cancel, BitVec.ofNat_toNat, BitVec.setWidth_eq]
    rw [if_neg ((sub128_borrow_iff a b).not.mpr hle.not_gt), hdiff]
  · rw [if_pos ((sub128_borrow_iff a b).mpr hlt)]

/-! The half steps of the primitives: a flag of the high halves leaves no room for one of the carry (R46, R49). -/

/-- Two flags of which at most one is set are not both set. -/
theorem and_eq_false_of_add_le_one {o1 o2 : Bool} (h : o1.toNat + o2.toNat ≤ 1) : (o1 && o2) = false := by
  revert o1 o2
  decide

/-- A half step that takes a borrow borrows itself exactly when there is one to take from 0 (R49). -/
theorem subHalf_carryIn_borrow_iff (x : Half) (br : Bool) :
    (subHalf x (carryIn br)).2 = true ↔ br = true ∧ x = 0#64 := by
  rw [subHalf, decide_eq_true_iff, toNat_carryIn, ← BitVec.toNat_inj, BitVec.toNat_zero]
  cases br <;> simp

/-- Settles O15: the witnesses are the three half additions, exact by `toNat_addHalf`; the high one leaves room for the
carry where it overflows. -/
theorem addPrimitiveIsThreeHalfAdditions : Obligations.AddPrimitiveIsThreeHalfAdditions := by
  intro a b
  have hlo := toNat_addHalf a.low b.low
  have hhi := toNat_addHalf a.high b.high
  have hcarry := toNat_addHalf (addHalf a.high b.high).1 (carryIn (addHalf a.low b.low).2)
  rw [toNat_carryIn] at hcarry
  refine ⟨_, _, _, _, _, _, hlo.symm, hhi.symm, hcarry.symm, rfl, and_eq_false_of_add_le_one (by omega), ?_,
    add128_overflow_iff a b⟩
  rw [add128_eq, BitVec.toNat_ofNat]

/-- Settles O18: the witnesses are the three half subtractions, exact by `toNat_subHalf`; the high one leaves enough to
take the borrow from where it borrows. -/
theorem subPrimitiveIsThreeHalfSubtractions : Obligations.SubPrimitiveIsThreeHalfSubtractions := by
  intro a b
  have hlo := toNat_subHalf a.low b.low
  have hhi := toNat_subHalf a.high b.high
  have hborrow := toNat_subHalf (subHalf a.high b.high).1 (carryIn (subHalf a.low b.low).2)
  rw [toNat_carryIn] at hborrow
  refine ⟨_, _, _, _, _, _, hlo, hhi, hborrow, subHalf_carryIn_borrow_iff .., rfl,
    and_eq_false_of_add_le_one (by omega), ?_, sub128_borrow_iff a b⟩
  rw [sub128_eq_ofNat, BitVec.toNat_ofNat]

/-! The laws of the primitives (R51). -/

theorem add128_comm (a b : Value) : add128 a b = add128 b a := by
  rw [add128_eq, add128_eq, Nat.add_comm]

theorem sub128_self (a : Value) : sub128 a a = (0#128, false) := by
  rw [sub128_eq, Int.sub_self, decide_eq_false (lt_irrefl _)]
  rfl

/-- Subtracting `b` from the wrapped sum gives `a` back, and borrows exactly when the sum wrapped (R51). -/
theorem sub128_add128 (a b : Value) : sub128 (add128 a b).1 b = (a, (add128 a b).2) := by
  have ha := a.isLt
  have hb := b.isLt
  have hsum : (add128 a b).1.toNat = (a.toNat + b.toNat) % 2 ^ 128 := by rw [add128_eq, BitVec.toNat_ofNat]
  refine Prod.ext (BitVec.eq_of_toNat_eq ?_) (Bool.eq_iff_iff.mpr ?_)
  · rw [sub128_eq_ofNat]
    simp only [BitVec.toNat_ofNat]
    omega
  · rw [sub128_borrow_iff, add128_overflow_iff]
    omega

/-- A sum overflows exactly when the room above `a` is less than `b` (R51). -/
theorem add128_overflow_iff_room (a b : Value) :
    (add128 a b).2 = true ↔ Config.maxValue.toNat - a.toNat < b.toNat := by
  have hmax : Config.maxValue.toNat = 2 ^ 128 - 1 := rfl
  have ha := a.isLt
  rw [add128_overflow_iff, hmax]
  omega

/-- NOT answers the room above `a`, so CMPLT of it with `b` tells the overflow of the sum (R51, R76). -/
theorem add128_overflow_iff_not_lt (a b : Value) : (add128 a b).2 = true ↔ valueLt (~~~a) b = true := by
  rw [add128_overflow_iff_room, valueLt_eq, decide_eq_true_iff, BitVec.toNat_not]
  rfl

theorem exec_not (a b : Value) (s : State) : exec (.not a b) s = .next (s.deliver (.ok (~~~a) 0#128 false)) :=
  exec_eq_closedForm (.not a b) s

/-- CMPLT answers 1 exactly when the comparison tree says less (R89). -/
theorem exec_cmplt_eq_one_iff (a b : Value) (s : State) :
    exec (.cmplt a b) s = .next (s.deliver (.ok 1#128 0#128 false)) ↔ valueLt a b = true := by
  rw [exec, execCmplt, respondOk, Host.Outcome.next.injEq, deliver_inj, verdict_eq]
  cases valueLt a b <;> decide

section trapping
variable {r : Value} {o : Bool} {s : State} {answer : Answer}
  (h : answer = .next (s.deliver (if o then .fault .overflow else .ok r 0#128 false)))
include h

/-- A trapping operation answers its result exactly when the flag is clear (R51). -/
theorem trapping_eq_ok_iff : answer = .next (s.deliver (.ok r 0#128 false)) ↔ o = false := by
  rw [h, Host.Outcome.next.injEq, deliver_inj]
  cases o <;> simp

/-- A trapping operation answers some OK response exactly when the flag is clear (R51). -/
theorem trapping_isOk_iff : (∃ x y z, answer = .next (s.deliver (.ok x y z))) ↔ o = false := by
  refine ⟨fun ⟨x, y, z, hok⟩ => ?_, fun ho => ⟨r, 0#128, false, (trapping_eq_ok_iff h).mpr ho⟩⟩
  rw [h, Host.Outcome.next.injEq, deliver_inj] at hok
  cases o
  · rfl
  · cases hok

end trapping

/-- Settles O20: the laws of `add128` and `sub128`, carried to the operations that answer them. -/
theorem additionAndSubtractionLaws : Obligations.AdditionAndSubtractionLaws := by
  intro a b s
  have hnot : (add128 a b).2 = true ↔ ∃ n, exec (.not a 0#128) s = .next (s.deliver (.ok n 0#128 false)) ∧
      exec (.cmplt n b) s = .next (s.deliver (.ok 1#128 0#128 false)) := by
    simp only [exec_not, exec_cmplt_eq_one_iff, Host.Outcome.next.injEq, deliver_inj, Response.ok.injEq, and_true,
      exists_eq_left', add128_overflow_iff_not_lt]
  refine ⟨(add128 a b).1, (sub128 a b).1, (add128 a b).2, (sub128 a b).2, exec_add a b s, ?_, ?_, ?_,
    add128_overflow_iff_room a b, hnot, exec_sub a b s, trapping_eq_ok_iff (exec_addT a b s),
    trapping_eq_ok_iff (exec_subT a b s), trapping_isOk_iff (exec_addT a b s), trapping_isOk_iff (exec_subT a b s)⟩
  · rw [add128_comm a b, exec_add]
  · rw [exec_sub, sub128_self]
  · rw [exec_sub, sub128_add128]

/-- Settles O55, by `exec_eq_closedForm`, one datapath's closed form per instruction. -/
theorem unitRefinesClosedForms : Obligations.UnitRefinesClosedForms :=
  exec_eq_closedForm

end Sys2Proof.Machine

/-! ## Multiplication -/

namespace Sys2Proof.Machine

open Sys2Proof.Safety

/-! The limb products and the segments (R54, R56), as `productAt`, `toNat_accumulate` and `toNat_propagate` give them. -/

/-- A sum over the limb-position pairs, diagonal by diagonal: the products of one diagonal have one weight (R54). -/
theorem sum_map_limbPairs (f : Nat × Nat → Nat) : (limbPairs.map f).sum =
    f (0, 0) + (f (0, 1) + f (1, 0)) + (f (0, 2) + f (1, 1) + f (2, 0)) +
      (f (0, 3) + f (1, 2) + f (2, 1) + f (3, 0)) + (f (1, 3) + f (2, 2) + f (3, 1)) + (f (2, 3) + f (3, 2)) +
      f (3, 3) := by
  simp only [limbPairs, List.cons_append, List.nil_append, List.map_cons, List.map_nil, List.sum_cons, List.sum_nil]
  omega

/-- Settles O22: each product is exact by `productAt_eq`, and the weighted sum of `toNat_mul_eq_products` is the sum
over the pairs. -/
theorem limbProductsSumToTheProduct : Obligations.LimbProductsSumToTheProduct := by
  refine fun a b => ⟨productAt_eq a b, ?_⟩
  rw [toNat_mul_eq_products, sum_map_limbPairs]
  simp only [productAt]
  ring

/-- The top segment takes seven 32-bit parts, which leaves it room for the carry from below (R56). -/
theorem accumulate_s3_lt (a b : Value) : (accumulate a b).s3.toNat < 7 * 2 ^ 32 := by
  obtain ⟨-, -, -, hs3⟩ := toNat_accumulate a b
  have hlow := fun i j => (productAt_eq_parts a b i j).2.1
  have hhigh := fun i j => (productAt_eq_parts a b i j).2.2
  grind

/-- Settles O23: the propagation keeps the number held (`toNat_propagate`), and the accumulated top segment is far
enough below 2^35 that the carry does not reach it. -/
theorem segmentsNeverWrap : Obligations.SegmentsNeverWrap := by
  intro a b
  obtain ⟨hs0, hs1, hs2, hs3⟩ := accumulate_lt a b
  obtain ⟨hvalue, ht0, ht1, ht2⟩ := toNat_propagate hs1 hs2 hs3
  have hroom := accumulate_s3_lt a b
  simp only [Segments.toNat] at hvalue
  have ht3 : (propagate (accumulate a b)).s3.toNat < 2 ^ 35 := by omega
  exact ⟨hs0, hs1, hs2, hs3, ht0, ht1, ht2, ht3, hvalue⟩

/-! The primitive `mul128` by `mul128_eq`, and the two operations over it (R57 to R60). -/

theorem mul128_overflow_iff (a b : Value) : (mul128 a b).2 = true ↔ 2 ^ 128 ≤ a.toNat * b.toNat := by
  rw [mul128_eq, decide_eq_true_iff]

theorem mul128_overflow_eq_false_iff (a b : Value) : (mul128 a b).2 = false ↔ a.toNat * b.toNat < 2 ^ 128 := by
  rw [← Bool.not_eq_true, mul128_overflow_iff, Nat.not_le]

theorem toNat_mul128 (a b : Value) : (mul128 a b).1.toNat = a.toNat * b.toNat % 2 ^ 128 := by
  rw [mul128_eq, BitVec.toNat_ofNat]

theorem toNat_mul128_of_lt {a b : Value} (h : a.toNat * b.toNat < 2 ^ 128) :
    (mul128 a b).1.toNat = a.toNat * b.toNat := by
  rw [toNat_mul128, Nat.mod_eq_of_lt h]

theorem mul128_comm (a b : Value) : mul128 a b = mul128 b a := by
  rw [mul128_eq, mul128_eq, Nat.mul_comm]

theorem exec_mul (a b : Value) (s : State) :
    exec (.mul a b) s = .next (s.deliver (.ok (mul128 a b).1 0#128 (mul128 a b).2)) := rfl

theorem exec_mulT (a b : Value) (s : State) : exec (.mulT a b) s =
    .next (s.deliver (if (mul128 a b).2 then .fault .overflow else .ok (mul128 a b).1 0#128 false)) :=
  raiseOrRespond_eq_deliver ..

/-- Settles O24: the flag's condition 2^128 ≤ a * b is a nonzero quotient by 2^128. -/
theorem limbMultiplierEqualsFullProduct : Obligations.LimbMultiplierEqualsFullProduct := by
  refine fun a b => ⟨toNat_mul128 a b, ?_⟩
  rw [mul128_overflow_iff, Nat.div_ne_zero_iff]
  exact (and_iff_right (by decide)).symm

/-- Settles O25: MUL answers the pair of `mul128`, which `mul128_eq` gives. -/
theorem mulReturnsLowProductAndOverflow : Obligations.MulReturnsLowProductAndOverflow :=
  fun a b s => ⟨decode_encode (.mul a b), by rw [exec_mul, mul128_eq]⟩

/-- Settles O26: MUL.T raises on `mul128`'s flag, which is set exactly when the product does not fit. -/
theorem mulTrappingFaultsOnOverflow : Obligations.MulTrappingFaultsOnOverflow := by
  refine fun a b s => ⟨decode_encode (.mulT a b), fun hfits => ?_, fun hover => ?_⟩ <;> rw [exec_mulT, mul128_eq]
  · rw [decide_eq_false hfits.not_ge, if_neg Bool.false_ne_true]
  · rw [decide_eq_true hover, if_pos rfl]

/-! The laws of multiplication (R61). -/

/-- A product needs at most as many bits as its factors have together. -/
theorem mul_lt_of_sigbits_add_le {a b : Value} {n : Nat} (h : sigbits a + sigbits b ≤ n) :
    a.toNat * b.toNat < 2 ^ n :=
  calc a.toNat * b.toNat
    _ < 2 ^ sigbits a * 2 ^ sigbits b := Nat.mul_lt_mul'' (lt_two_pow_sigbits a) (lt_two_pow_sigbits b)
    _ = 2 ^ (sigbits a + sigbits b) := (Nat.pow_add ..).symm
    _ ≤ 2 ^ n := Nat.pow_le_pow_right Nat.two_pos h

/-- A product of nonzero factors needs at least one bit less than its factors have together. -/
theorem le_mul_of_le_sigbits_add {a b : Value} {n : Nat} (ha : 0 < sigbits a) (hb : 0 < sigbits b)
    (h : n + 2 ≤ sigbits a + sigbits b) : 2 ^ n ≤ a.toNat * b.toNat :=
  calc 2 ^ n
    _ ≤ 2 ^ ((sigbits a - 1) + (sigbits b - 1)) := Nat.pow_le_pow_right Nat.two_pos (by omega)
    _ = 2 ^ (sigbits a - 1) * 2 ^ (sigbits b - 1) := Nat.pow_add ..
    _ ≤ a.toNat * b.toNat := Nat.mul_le_mul (two_pow_le_of_lt_sigbits (Nat.sub_one_lt_of_lt ha))
        (two_pow_le_of_lt_sigbits (Nat.sub_one_lt_of_lt hb))

/-- Bit counts that sum to 130 leave neither factor without bits, and their product does not fit (R61). -/
theorem mul128_overflow_of_sigbits {a b : Value} (h : 130 ≤ sigbits a + sigbits b) : (mul128 a b).2 = true := by
  have ha := sigbits_le_128 a
  have hb := sigbits_le_128 b
  exact (mul128_overflow_iff a b).mpr (le_mul_of_le_sigbits_add (by omega) (by omega) h)

/-- A value with a zero high half is below 2^64. -/
theorem toNat_lt_of_high_eq_zero {v : Value} (h : v.high = 0#64) : v.toNat < 2 ^ 64 := by
  rw [← ofHalf_low_of_high_eq_zero h, toNat_ofHalf]
  exact v.low.isLt

/-- The product of two values with zero high halves fits (R61). -/
theorem mul_lt_of_high_eq_zero {a b : Value} (ha : a.high = 0#64) (hb : b.high = 0#64) :
    a.toNat * b.toNat < 2 ^ 128 :=
  (Nat.mul_lt_mul'' (toNat_lt_of_high_eq_zero ha) (toNat_lt_of_high_eq_zero hb)).trans_eq (Nat.pow_add 2 64 64).symm

theorem exec_divrem_of_ne_zero {b : Value} (hb : b ≠ 0#128) (a : Value) (s : State) :
    exec (.divrem a b) s = .next (s.deliver
      (.ok (BitVec.ofNat 128 (a.toNat / b.toNat)) (BitVec.ofNat 128 (a.toNat % b.toNat)) false)) := by
  rw [exec_eq_closedForm, closedForm, dividing, if_neg hb]

/-- MUL.T and ADD.T put quotient and remainder together again without a fault: neither `q * b` nor `q * b + m = a`
exceeds `a` (R61). -/
theorem mulT_addT_of_divrem {a b q m : Value} (hdiv : q.toNat * b.toNat + m.toNat = a.toNat) (s : State) :
    ∃ p, exec (.mulT q b) s = .next (s.deliver (.ok p 0#128 false)) ∧
      exec (.addT p m) s = .next (s.deliver (.ok a 0#128 false)) := by
  have ha := a.isLt
  have hprod : q.toNat * b.toNat < 2 ^ 128 := by omega
  have hp : (mul128 q b).1.toNat = q.toNat * b.toNat := toNat_mul128_of_lt hprod
  have hsum : (mul128 q b).1.toNat + m.toNat = a.toNat := by rw [hp, hdiv]
  have hfits : (mul128 q b).1.toNat + m.toNat < 2 ^ 128 := hsum.trans_lt ha
  have hadd : (add128 (mul128 q b).1 m).1 = a :=
    BitVec.eq_of_toNat_eq ((toNat_add128_of_lt hfits).trans hsum)
  refine ⟨(mul128 q b).1, ?_, ?_⟩
  · rw [exec_mulT, (mul128_overflow_eq_false_iff q b).mpr hprod, if_neg Bool.false_ne_true]
  · rw [exec_addT, if_neg ((add128_overflow_iff _ m).not.mpr hfits.not_ge), hadd]

/-- Settles O27: commutativity of the primitive, the bounds of a product by its factors' bit counts and halves, and the
division round trip. -/
theorem multiplicationLaws : Obligations.MultiplicationLaws := by
  refine fun a b s => ⟨(mul128 a b).1, (mul128 a b).2, exec_mul a b s, ?_, fun hle => ?_, mul128_overflow_of_sigbits,
    fun ha hb => ?_, fun hb => ?_⟩
  · rw [mul128_comm a b, exec_mul]
  · exact (mul128_overflow_eq_false_iff a b).mpr (mul_lt_of_sigbits_add_le hle)
  · have hfits := mul_lt_of_high_eq_zero ha hb
    exact ⟨(mul128_overflow_eq_false_iff a b).mpr hfits, toNat_mul128_of_lt hfits⟩
  · refine ⟨_, _, (mulT_addT_of_divrem ?_ s).imp fun p hp => ⟨exec_divrem_of_ne_zero hb a s, hp⟩⟩
    rw [BitVec.toNat_ofNat, BitVec.toNat_ofNat, Nat.mod_eq_of_lt ((Nat.div_le_self ..).trans_lt a.isLt),
      Nat.mod_eq_of_lt ((Nat.mod_le ..).trans_lt a.isLt), Nat.mul_comm, Nat.div_add_mod]

end Sys2Proof.Machine

/-! ## Division -/

namespace Sys2Proof.Machine

open Sys2Proof.Safety

/-- Settles O28, by `divrem128_eq`: the library's division and modulus of bit vectors are those of the numbers. -/
theorem longDivisionIsFloorDivision : Obligations.LongDivisionIsFloorDivision := by
  intro a d hd
  rw [divrem128_eq hd, ← BitVec.udiv_def, ← BitVec.umod_def]
  exact ⟨BitVec.toNat_udiv, BitVec.toNat_umod⟩

/-! The alignment and the end of the general case (R65, R70). -/

theorem toNat_shiftLeft128_of_lt {v : Value} {k : Nat} (h : v.toNat * 2 ^ k < 2 ^ 128) :
    (shiftLeft128 v k).toNat = v.toNat * 2 ^ k := by
  rw [toNat_shiftLeft128, Nat.mod_eq_of_lt h]

/-- A left shift of a nonzero value that loses no bit adds its amount to the bit count. -/
theorem sigbits_shiftLeft128 {v : Value} {k : Nat} (hv : 0 < v.toNat) (h : v.toNat * 2 ^ k < 2 ^ 128) :
    sigbits (shiftLeft128 v k) = sigbits v + k := by
  refine le_antisymm (sigbits_le_iff.mpr ?_) ?_
  · rw [toNat_shiftLeft128_of_lt h, Nat.pow_add]
    exact Nat.mul_lt_mul_of_pos_right (lt_two_pow_sigbits v) (Nat.two_pow_pos k)
  · have hbelow := lt_two_pow_sigbits (shiftLeft128 v k)
    rw [toNat_shiftLeft128_of_lt h] at hbelow
    have hk : k < sigbits (shiftLeft128 v k) :=
      (Nat.pow_lt_pow_iff_right Nat.one_lt_two).mp ((Nat.le_mul_of_pos_left _ hv).trans_lt hbelow)
    rw [← Nat.sub_add_cancel hk.le, Nat.pow_add] at hbelow
    exact Nat.add_le_of_le_sub hk.le (sigbits_le_iff.mpr (Nat.lt_of_mul_lt_mul_right hbelow))

/-- A value of 2 or more has at least two significant bits. -/
theorem two_le_sigbits {v : Value} (h : 2 ≤ v.toNat) : 2 ≤ sigbits v := by
  by_contra hlt
  have hbelow : v.toNat < 2 ^ 1 := sigbits_le_iff.mp (by omega)
  omega

/-- Two loops that divide the same have the same answer, whatever their fuel and their alignment. -/
theorem Divides.unique {d rem q : Value} {x y : Value × Value} (hx : Divides d rem q x) (hy : Divides d rem q y) :
    x = y :=
  Prod.ext (BitVec.eq_of_toNat_eq (hx.1.trans hy.1.symm)) (BitVec.eq_of_toNat_eq (hx.2.trans hy.2.symm))

/-- The remainder of a division by a nonzero divisor is below it (R66). -/
theorem Divides.rem_lt {d rem q : Value} {x : Value × Value} (h : Divides d rem q x) (hd : 0 < d.toNat) :
    x.2.toNat < d.toNat :=
  h.2.trans_lt (Nat.mod_lt _ hd)

/-- Settles O29: the bit counts bound the shift and say that no bit is lost; with `s + 1` iterations or more the loop
divides, and what it has to answer is unique. -/
theorem divisionLoopEndsWithinBound : Obligations.DivisionLoopEndsWithinBound := by
  intro a d more hd hlt
  have hdpos : 0 < d.toNat := Nat.two_pos.trans_le hd
  have hle : sigbits d ≤ sigbits a := sigbits_le_of_toNat_le hlt.le
  have hshift : sigbits a - sigbits d ≤ 126 := tsub_le_tsub (sigbits_le_128 a) (two_le_sigbits hd)
  obtain ⟨-, hfits, -⟩ := align_divisor hdpos hlt
  have hgeneral : Divides d a 0#128 (divideGeneral a d) :=
    divideLoop_aligned_divides hdpos hlt (Nat.lt_succ_self _)
  have hmore := divideLoop_aligned_divides hdpos hlt (fuel := sigbits a - sigbits d + 1 + more) (by omega)
  refine ⟨hle, hshift, toNat_shiftLeft128_of_lt hfits, ?_, hmore.unique hgeneral, hgeneral.rem_lt hdpos⟩
  rw [sigbits_shiftLeft128 hdpos hfits, Nat.add_sub_cancel' hle]

/-! The three operations over `divrem128` (R67 to R69). -/

/-- A division operation answers for a nonzero divisor what its closed form says, and the fault for a zero one
(R63, R102). -/
theorem exec_of_closedForm_dividing {i : Instr} {b : Value} {rsp : Response} (h : closedForm i = dividing b rsp)
    (s : State) : (b ≠ 0#128 → exec i s = .next (s.deliver rsp)) ∧
      (b = 0#128 → exec i s = .next (s.deliver (.fault .divideByZero))) := by
  rw [exec_eq_closedForm, h, dividing]
  refine ⟨fun hb => ?_, fun hb => ?_⟩
  · rw [if_neg hb]
  · rw [if_pos hb]

/-- Settles O30, by DIVREM's closed form. -/
theorem divremReturnsQuotientAndRemainder : Obligations.DivremReturnsQuotientAndRemainder :=
  fun a b s => ⟨decode_encode (.divrem a b), exec_of_closedForm_dividing rfl s⟩

/-- Settles O31, by DIV's closed form. -/
theorem divReturnsQuotient : Obligations.DivReturnsQuotient :=
  fun a b s => ⟨decode_encode (.div a b), exec_of_closedForm_dividing rfl s⟩

/-- Settles O32, by REM's closed form. -/
theorem remReturnsRemainder : Obligations.RemReturnsRemainder :=
  fun a b s => ⟨decode_encode (.rem a b), exec_of_closedForm_dividing rfl s⟩

end Sys2Proof.Machine

/-! ## Bitwise logic and byte reversal -/

namespace Sys2Proof

/-- Bit `j` of byte `i` stands at place `8 * i + j` (R21). -/
theorem getLsbD_byte (v : Value) (i : Nat) {j : Nat} (hj : j < 8) : (v.byte i).getLsbD j = v.getLsbD (8 * i + j) :=
  getLsbD_extractLsb'_of_lt v (8 * i) hj

/-- A value is its 16 bytes (R21). -/
theorem eq_of_byte_eq {v w : Value} (h : ∀ i, i < 16 → v.byte i = w.byte i) : v = w := by
  apply BitVec.eq_of_getLsbD_eq
  intro k hk
  rw [← Nat.div_add_mod k 8, ← getLsbD_byte v _ (Nat.mod_lt k (by decide)), h _ (by omega),
    getLsbD_byte w _ (Nat.mod_lt k (by decide))]

/-- The bytes of the high half are the upper 8 of the value (R10, R21). -/
theorem high_extractLsb'_eq_byte (v : Value) {i : Nat} (hi : i < 8) :
    v.high.extractLsb' (8 * i) 8 = v.byte (8 + i) := by
  apply BitVec.eq_of_getLsbD_eq
  intro j hj
  have hplace : 64 + (8 * i + j) = 8 * (8 + i) + j := by omega
  rw [getLsbD_byte _ _ hj, getLsbD_extractLsb'_of_lt _ _ hj, Value.high, getLsbD_extractLsb'_of_lt _ _ (by omega),
    hplace]

/-- The bytes of the low half are the lower 8 of the value (R10, R21). -/
theorem low_extractLsb'_eq_byte (v : Value) {i : Nat} (hi : i < 8) :
    v.low.extractLsb' (8 * i) 8 = v.byte i := by
  rw [Value.low, BitVec.extractLsb'_extractLsb'_of_le (by omega), Value.byte]

namespace Machine

theorem exec_and (a b : Value) (s : State) : exec (.and a b) s = .next (s.deliver (.ok (a &&& b) 0#128 false)) :=
  exec_eq_closedForm (.and a b) s

theorem exec_or (a b : Value) (s : State) : exec (.or a b) s = .next (s.deliver (.ok (a ||| b) 0#128 false)) :=
  exec_eq_closedForm (.or a b) s

theorem exec_xor (a b : Value) (s : State) : exec (.xor a b) s = .next (s.deliver (.ok (a ^^^ b) 0#128 false)) :=
  exec_eq_closedForm (.xor a b) s

/-- Complementing every bit subtracts from the largest value (R76). -/
theorem toNat_not_eq_maxValue_sub (a : Value) : (~~~a).toNat = Config.maxValue.toNat - a.toNat :=
  BitVec.toNat_not

/-- Settles O33: each operation answers the whole-value operation of its closed form, whose bits the library gives. -/
theorem logicActsOnEachBit : Obligations.LogicActsOnEachBit := by
  refine fun a b s => ⟨decode_encode (.and a b), decode_encode (.or a b), decode_encode (.xor a b),
    decode_encode (.not a b), ⟨_, exec_and a b s, ?_⟩, ⟨_, exec_or a b s, ?_⟩, ⟨_, exec_xor a b s, ?_⟩,
    ⟨_, exec_not a b s, ?_, toNat_not_eq_maxValue_sub a⟩⟩
  · exact fun i _ => BitVec.getLsbD_and
  · exact fun i _ => BitVec.getLsbD_or
  · exact fun i _ => BitVec.getLsbD_xor
  · intro i hi
    rw [BitVec.getLsbD_not, decide_eq_true hi, Bool.true_and]

/-- Byte `i` of the reversed value is byte `15 - i` (R77). -/
theorem byte_swapBytes (a : Value) {i : Nat} (hi : i < 16) : (swapBytes a 16).byte i = a.byte (15 - i) := by
  apply BitVec.eq_of_getLsbD_eq
  intro j hj
  have hdiv : (8 * i + j) / 8 = i := by omega
  have hmod : (8 * i + j) % 8 = j := by omega
  rw [getLsbD_byte _ _ hj, getLsbD_byte _ _ hj, getLsbD_swapBytes a le_rfl, hdiv, hmod, decide_eq_true (by omega),
    Bool.true_and]

/-- Reversing the bytes twice gives the value back (R77): `15 - (15 - i) = i`. -/
theorem swapBytes_swapBytes (a : Value) : swapBytes (swapBytes a 16) 16 = a := by
  refine eq_of_byte_eq fun i hi => ?_
  rw [byte_swapBytes _ hi, byte_swapBytes _ (by omega), Nat.sub_sub_self (by omega)]

theorem exec_bswap (a b : Value) (s : State) :
    exec (.bswap a b) s = .next (s.deliver (.ok (swapBytes a 16) 0#128 false)) := rfl

/-- Settles O34: the reversal byte by byte (`byte_swapBytes`), the halves being the upper and the lower 8 bytes, and
its involution (`swapBytes_swapBytes`). -/
theorem bswapReversesBytes : Obligations.BswapReversesBytes := by
  refine fun a b b' s t => ⟨decode_encode (.bswap a b), _, exec_bswap a b s, fun i hi => byte_swapBytes a hi,
    fun i hi => ⟨?_, ?_⟩, ?_⟩
  · have hplace : 15 - (8 + i) = 7 - i := by omega
    rw [high_extractLsb'_eq_byte _ hi, low_extractLsb'_eq_byte a (by omega), byte_swapBytes a (by omega), hplace]
  · have hplace : 15 - i = 8 + (7 - i) := by omega
    rw [low_extractLsb'_eq_byte _ hi, high_extractLsb'_eq_byte a (by omega), byte_swapBytes a (by omega), hplace]
  · rw [exec_bswap, swapBytes_swapBytes]

end Machine
end Sys2Proof

/-! ## The barrel shifter -/

namespace Sys2Proof.Machine

theorem exec_shl (a b : Value) (s : State) :
    exec (.shl a b) s = .next (s.deliver (.ok (shiftLeft128 a (shiftAmount b)) 0#128 false)) := rfl

theorem exec_shr (a b : Value) (s : State) :
    exec (.shr a b) s = .next (s.deliver (.ok (shiftRight128 a (shiftAmount b)) 0#128 false)) := rfl

/-! The four cases of each shift, on the halves of the result (R82 to R84). -/

theorem shiftLeft128_zero (a : Value) : shiftLeft128 a 0 = a :=
  ofHalves_high_low a

theorem shiftLeft128_of_le_63 {w : Nat} (hpos : 1 ≤ w) (hle : w ≤ 63) (a : Value) :
    shiftLeft128 a w = Value.ofHalves ((a.high <<< w) ||| (a.low >>> (64 - w))) (a.low <<< w) := by
  rw [shiftLeft128, if_neg (by omega), if_pos hle]

theorem shiftLeft128_64 (a : Value) : shiftLeft128 a 64 = Value.ofHalves a.low 0#64 := rfl

theorem shiftLeft128_of_65_le {w : Nat} (hle : 65 ≤ w) (a : Value) :
    shiftLeft128 a w = Value.ofHalves (a.low <<< (w - 64)) 0#64 := by
  rw [shiftLeft128, if_neg (by omega), if_neg (by omega), if_neg (by omega)]

theorem shiftRight128_zero (a : Value) : shiftRight128 a 0 = a :=
  ofHalves_high_low a

theorem shiftRight128_of_le_63 {w : Nat} (hpos : 1 ≤ w) (hle : w ≤ 63) (a : Value) :
    shiftRight128 a w = Value.ofHalves (a.high >>> w) ((a.low >>> w) ||| (a.high <<< (64 - w))) := by
  rw [shiftRight128, if_neg (by omega), if_pos hle]

theorem shiftRight128_64 (a : Value) : shiftRight128 a 64 = Value.ofHalves 0#64 a.high := rfl

theorem shiftRight128_of_65_le {w : Nat} (hle : 65 ≤ w) (a : Value) :
    shiftRight128 a w = Value.ofHalves 0#64 (a.high >>> (w - 64)) := by
  rw [shiftRight128, if_neg (by omega), if_neg (by omega), if_neg (by omega)]

/-- The halves of a value that is known by its halves. -/
theorem halves_of_eq_ofHalves {v : Value} {h l : Half} (hv : v = Value.ofHalves h l) : v.high = h ∧ v.low = l := by
  rw [hv]
  exact ⟨high_ofHalves h l, low_ofHalves h l⟩

/-- Settles O35: the closed form by `toNat_shiftLeft128`, and the halves by the four cases. -/
theorem shlMultipliesByPowerOfTwo : Obligations.ShlMultipliesByPowerOfTwo := by
  intro a b s
  refine ⟨decode_encode (.shl a b), _, exec_shl a b s, ?_, fun w hw => ?_⟩
  · rw [toNat_shiftLeft128, shiftAmount_eq]
  · have hamount : shiftAmount b = w := hw.symm
    rw [hamount]
    refine ⟨hw.trans (shiftAmount_eq b), ?_, fun hpos hle => halves_of_eq_ofHalves (shiftLeft128_of_le_63 hpos hle a),
      ?_, fun hle => halves_of_eq_ofHalves (shiftLeft128_of_65_le hle a)⟩
    · rintro rfl
      exact shiftLeft128_zero a
    · rintro rfl
      exact halves_of_eq_ofHalves (shiftLeft128_64 a)

/-- Settles O36: the closed form by `toNat_shiftRight128`, and the halves by the four cases. -/
theorem shrDividesByPowerOfTwo : Obligations.ShrDividesByPowerOfTwo := by
  intro a b s
  refine ⟨decode_encode (.shr a b), _, exec_shr a b s, ?_, fun w hw => ?_⟩
  · rw [toNat_shiftRight128, shiftAmount_eq]
  · have hamount : shiftAmount b = w := hw.symm
    rw [hamount]
    refine ⟨hw.trans (shiftAmount_eq b), ?_, fun hpos hle => halves_of_eq_ofHalves (shiftRight128_of_le_63 hpos hle a),
      ?_, fun hle => halves_of_eq_ofHalves (shiftRight128_of_65_le hle a)⟩
    · rintro rfl
      exact shiftRight128_zero a
    · rintro rfl
      exact halves_of_eq_ofHalves (shiftRight128_64 a)

/-! The laws of the shifter (R85). -/

/-- A left then a right shift by the same amount loses the `w` highest bits. -/
theorem toNat_shiftRight128_shiftLeft128 (a : Value) {w : Nat} (hw : w ≤ 127) :
    (shiftRight128 (shiftLeft128 a w) w).toNat = a.toNat % 2 ^ (128 - w) := by
  have hsplit : 2 ^ 128 = 2 ^ (128 - w) * 2 ^ w := by rw [← Nat.pow_add, Nat.sub_add_cancel (by omega)]
  rw [toNat_shiftRight128, toNat_shiftLeft128, hsplit, Nat.mul_mod_mul_right,
    Nat.mul_div_cancel _ (Nat.two_pow_pos w)]

/-- A right then a left shift by the same amount clears the `w` lowest bits. -/
theorem toNat_shiftLeft128_shiftRight128 (a : Value) (w : Nat) :
    (shiftLeft128 (shiftRight128 a w) w).toNat = a.toNat - a.toNat % 2 ^ w := by
  have hfits : a.toNat / 2 ^ w * 2 ^ w < 2 ^ 128 := (Nat.div_mul_le_self ..).trans_lt a.isLt
  rw [← toNat_shiftRight128] at hfits
  rw [toNat_shiftLeft128_of_lt hfits, toNat_shiftRight128, Nat.div_mul_self_eq_mod_sub_self]

/-- Two left shifts by 64 leave nothing: the first clears the low half, the second keeps only that half. -/
theorem shiftLeft128_64_shiftLeft128_64 (a : Value) : shiftLeft128 (shiftLeft128 a 64) 64 = 0#128 := by
  rw [shiftLeft128_64, shiftLeft128_64, low_ofHalves]
  rfl

/-- Doubling a value by the adder is a left shift by 1, and its carry is the bit that the shift drops. -/
theorem add128_self (a : Value) : add128 a a = (shiftLeft128 a 1, a.getLsbD 127) := by
  have htop : a.getLsbD 127 = decide (2 ^ 127 ≤ a.toNat) := BitVec.msb_eq_decide a
  have hsum : a.toNat + a.toNat = a.toNat * 2 ^ 1 := by omega
  rw [add128_eq, htop, hsum]
  refine Prod.ext (BitVec.eq_of_toNat_eq ?_) (decide_eq_decide.mpr (by omega))
  rw [BitVec.toNat_ofNat, toNat_shiftLeft128]

/-- A right shift by `w` takes `w` from the bit count, down to 0. -/
theorem sigbits_shiftRight128 (a : Value) (w : Nat) : sigbits (shiftRight128 a w) = sigbits a - w := by
  refine eq_of_forall_ge_iff fun n => ?_
  rw [sigbits_le_iff, toNat_shiftRight128, Nat.div_lt_iff_lt_mul (Nat.two_pow_pos w), ← Nat.pow_add,
    ← sigbits_le_iff, Nat.sub_le_iff_le_add]

/-- Settles O37: each law is one lemma on the datapath, carried to SHL and ADD by `exec_shl` and `exec_add`. -/
theorem shiftLaws : Obligations.ShiftLaws := by
  have h64 : shiftAmount 64#128 = 64 := by decide
  have h128 : shiftAmount 128#128 = 0 := by decide
  have h1 : shiftAmount 1#128 = 1 := by decide
  refine ⟨fun a b b' s hmod => ?_,
    fun a w hw => ⟨toNat_shiftRight128_shiftLeft128 a hw, toNat_shiftLeft128_shiftRight128 a w⟩,
    fun a s => ⟨⟨_, exec_shl a 64#128 s, ?_⟩, ?_⟩, fun a s => ⟨_, exec_shl a 1#128 s, ?_⟩,
    fun a w _ => sigbits_shiftRight128 a w⟩
  · have hamount : shiftAmount b = shiftAmount b' := by rw [shiftAmount_eq, hmod, shiftAmount_eq]
    rw [exec_shl, exec_shr, hamount]
    exact ⟨rfl, rfl⟩
  · rw [exec_shl, h64, shiftLeft128_64_shiftLeft128_64]
  · rw [exec_shl, h128, shiftLeft128_zero]
  · rw [exec_add, add128_self, h1]

end Sys2Proof.Machine

/-! ## Comparison -/

namespace Sys2Proof.Machine

theorem exec_cmpeq (a b : Value) (s : State) :
    exec (.cmpeq a b) s = .next (s.deliver (.ok (verdict (valueEq a b)) 0#128 false)) := rfl

theorem exec_cmplt (a b : Value) (s : State) :
    exec (.cmplt a b) s = .next (s.deliver (.ok (verdict (valueLt a b)) 0#128 false)) := rfl

/-! The comparison tree as propositions (R88 to R90). -/

theorem valueEq_iff {a b : Value} : valueEq a b = true ↔ a = b := by
  rw [valueEq_eq, decide_eq_true_iff]

theorem valueLt_iff {a b : Value} : valueLt a b = true ↔ a.toNat < b.toNat := by
  rw [valueLt_eq, decide_eq_true_iff]

theorem valueLt_eq_false_iff {a b : Value} : valueLt a b = false ↔ b.toNat ≤ a.toNat := by
  rw [valueLt_eq, decide_eq_false_iff_not, Nat.not_lt]

/-- The tree as it is computed: the high halves decide, and the low halves where they are equal (R89). -/
theorem valueLt_iff_halves {a b : Value} :
    valueLt a b = true ↔ a.high.toNat < b.high.toNat ∨ (a.high = b.high ∧ a.low.toNat < b.low.toNat) := by
  rw [valueLt, Bool.or_eq_true, Bool.and_eq_true, decide_eq_true_iff, decide_eq_true_iff, decide_eq_true_iff]

/-- Settles O38: CMPEQ answers the verdict of `valueEq` (`verdict_valueEq`), and equal halves make equal values. -/
theorem cmpeqReturnsVerdict : Obligations.CmpeqReturnsVerdict :=
  fun a b s => ⟨decode_encode (.cmpeq a b), by rw [exec_cmpeq, verdict_valueEq], eq_iff_halves⟩

/-- Settles O39: CMPLT answers the verdict of `valueLt` (`verdict_valueLt`), which is both the numeric order and the
lexicographic one. -/
theorem cmpltReturnsVerdict : Obligations.CmpltReturnsVerdict :=
  fun a b s => ⟨decode_encode (.cmplt a b), by rw [exec_cmplt, verdict_valueLt],
    valueLt_iff.symm.trans valueLt_iff_halves⟩

/-- Exactly one of less, equal and greater holds (R90). -/
theorem valueLt_trichotomy (a b : Value) :
    (valueLt a b = true ∧ a ≠ b ∧ valueLt b a = false) ∨ (valueLt a b = false ∧ a = b ∧ valueLt b a = false) ∨
      (valueLt a b = false ∧ a ≠ b ∧ valueLt b a = true) := by
  simp only [valueLt_iff, valueLt_eq_false_iff, ne_eq, ← BitVec.toNat_inj]
  rcases Nat.lt_trichotomy a.toNat b.toNat with hlt | heq | hgt
  · exact .inl ⟨hlt, hlt.ne, hlt.le⟩
  · exact .inr (.inl ⟨heq.ge, heq, heq.le⟩)
  · exact .inr (.inr ⟨hgt.le, hgt.ne', hgt⟩)

theorem valueLt_trans {a b c : Value} (hab : valueLt a b = true) (hbc : valueLt b c = true) :
    valueLt a c = true :=
  valueLt_iff.mpr ((valueLt_iff.mp hab).trans (valueLt_iff.mp hbc))

/-- Settles O40: the order is that of the numbers (`valueLt_iff`), each number being `high * 2^64 + low`. -/
theorem comparisonOrderIsTotalAndNumeric : Obligations.ComparisonOrderIsTotalAndNumeric := by
  refine fun a b c => ⟨valueLt_trichotomy a b, valueLt_trans, ?_⟩
  rw [valueLt_iff, toNat_eq_halves a, toNat_eq_halves b]

/-! The host's arithmetic on verdicts (R91): the test against 1, the complement and the disjunction. -/

theorem verdict_eq_one_iff {c : Bool} : verdict c = 1#128 ↔ c = true := by
  cases c <;> decide

theorem one_sub_verdict (c : Bool) : 1#128 - verdict c = verdict (!c) := by
  cases c <;> rfl

theorem verdict_or (c d : Bool) : verdict c ||| verdict d = verdict (c || d) := by
  cases c <;> cases d <;> rfl

/-- The complement of CMPLT's verdict says that the operands are the other way round or equal (R91). -/
theorem one_sub_verdict_valueLt_iff {a b : Value} :
    1#128 - verdict (valueLt a b) = 1#128 ↔ b.toNat ≤ a.toNat := by
  rw [one_sub_verdict, verdict_eq_one_iff, Bool.not_eq_true', valueLt_eq_false_iff]

/-- The complement of CMPEQ's verdict says that the operands differ (R91). -/
theorem one_sub_verdict_valueEq_iff {a b : Value} : 1#128 - verdict (valueEq a b) = 1#128 ↔ a ≠ b := by
  rw [one_sub_verdict, verdict_eq_one_iff, Bool.not_eq_true', ← Bool.not_eq_true, valueEq_iff]

/-- One of the two verdicts is 1 exactly when the operands are in order or equal (R91). -/
theorem verdict_valueLt_or_valueEq_iff {a b : Value} :
    verdict (valueLt a b) ||| verdict (valueEq a b) = 1#128 ↔ a.toNat ≤ b.toNat := by
  rw [verdict_or, verdict_eq_one_iff, Bool.or_eq_true, valueLt_iff, valueEq_iff, ← BitVec.toNat_inj,
    Nat.le_iff_lt_or_eq]

/-- The subtractor borrows exactly when the comparison tree says less (R91). -/
theorem sub128_borrow_eq_valueLt (a b : Value) : (sub128 a b).2 = valueLt a b := by
  rw [sub128_eq, valueLt_eq]

/-- Settles O41: the borrow and the exclusive or against the comparison tree, and the derived relations by the
complement and the disjunction of verdicts. -/
theorem comparisonLinks : Obligations.ComparisonLinks := by
  refine fun a b s => ⟨_, _, _, _, _, _, exec_cmplt a b s, exec_cmpeq a b s, exec_cmplt b a s, exec_sub a b s,
    exec_xor a b s, ?_, ?_, verdict_eq_one_iff.trans valueLt_iff, one_sub_verdict_valueEq_iff.symm,
    verdict_valueLt_or_valueEq_iff.symm, one_sub_verdict_valueLt_iff.symm, one_sub_verdict_valueLt_iff.symm⟩
  · rw [toNat_verdict, sub128_borrow_eq_valueLt]
  · rw [verdict_eq_one_iff, valueEq_iff, BitVec.xor_eq_zero_iff]

end Sys2Proof.Machine

/-! ## The status codes and the conditions of the faults -/

namespace Sys2Proof.Machine

open Sys2Proof.Safety

/-- Settles O7, fault by fault and, for the codes 4 to 15 that name no fault, code by code. -/
theorem statusCodes : Obligations.StatusCodes := by
  refine ⟨fun rsp => ?_, fun c => ?_, rfl, rfl, rfl⟩
  · cases rsp with
    | ok r r2 ovf => exact ⟨Nat.zero_le 3, iff_of_true rfl rfl⟩
    | fault c => cases c <;> decide
  · cases c <;> decide

/-- The faults an operation raises, with what its operands must be (R102, R103). -/
inductive Raises : Instr → Fault → Prop where
  /-- DIV by zero (R102). -/
  | div (a : Value) : Raises (.div a 0#128) .divideByZero
  /-- REM by zero (R102). -/
  | rem (a : Value) : Raises (.rem a 0#128) .divideByZero
  /-- DIVREM by zero (R102). -/
  | divrem (a : Value) : Raises (.divrem a 0#128) .divideByZero
  /-- ADD.T whose sum does not fit (R103). -/
  | addT {a b : Value} (h : 2 ^ 128 ≤ a.toNat + b.toNat) : Raises (.addT a b) .overflow
  /-- SUB.T whose difference is negative (R103). -/
  | subT {a b : Value} (h : a.toNat < b.toNat) : Raises (.subT a b) .overflow
  /-- MUL.T whose product does not fit (R103). -/
  | mulT {a b : Value} (h : 2 ^ 128 ≤ a.toNat * b.toNat) : Raises (.mulT a b) .overflow

/-- DivideByZero is raised by the three divisions, with the divisor 0 (R102). -/
theorem raises_divideByZero_iff {i : Instr} :
    Raises i .divideByZero ↔ ∃ a, i = .div a 0#128 ∨ i = .rem a 0#128 ∨ i = .divrem a 0#128 := by
  constructor
  · intro h
    cases h with
    | div a => exact ⟨a, .inl rfl⟩
    | rem a => exact ⟨a, .inr (.inl rfl)⟩
    | divrem a => exact ⟨a, .inr (.inr rfl)⟩
  · rintro ⟨a, rfl | rfl | rfl⟩
    · exact .div a
    · exact .rem a
    · exact .divrem a

/-- Overflow is raised by the three trapping operations, where the exact result does not fit (R103). -/
theorem raises_overflow_iff {i : Instr} :
    Raises i .overflow ↔ ∃ a b : Value, (i = .addT a b ∧ 2 ^ 128 ≤ a.toNat + b.toNat) ∨
      (i = .subT a b ∧ a.toNat < b.toNat) ∨ (i = .mulT a b ∧ 2 ^ 128 ≤ a.toNat * b.toNat) := by
  constructor
  · intro h
    cases h with
    | addT h => exact ⟨_, _, .inl ⟨rfl, h⟩⟩
    | subT h => exact ⟨_, _, .inr (.inl ⟨rfl, h⟩)⟩
    | mulT h => exact ⟨_, _, .inr (.inr ⟨rfl, h⟩)⟩
  · rintro ⟨a, b, ⟨rfl, h⟩ | ⟨rfl, h⟩ | ⟨rfl, h⟩⟩
    · exact .addT h
    · exact .subT h
    · exact .mulT h

/-- A trapping operation's closed form is a fault exactly where the flag would be set (R34). -/
theorem trapping_eq_fault_iff {exact : Int} {overflows : Bool} {c : Fault} :
    trapping exact overflows = .fault c ↔ overflows = true ∧ .overflow = c := by
  cases overflows <;> simp [trapping, onlyR]

/-- A division's closed form is a fault exactly for the divisor 0 (R102). -/
theorem dividing_ok_eq_fault_iff {b q r2 : Value} {ovf : Bool} {c : Fault} :
    dividing b (.ok q r2 ovf) = .fault c ↔ b = 0#128 ∧ .divideByZero = c := by
  by_cases hb : b = 0#128 <;> simp [dividing, hb]

/-- The closed form of an operation is a fault exactly where R102 and R103 have it raised. -/
theorem closedForm_eq_fault_iff {i : Instr} {c : Fault} : closedForm i = .fault c ↔ Raises i c := by
  refine ⟨fun h => ?_, fun h => ?_⟩
  · cases i with
    | div a b | rem a b | divrem a b =>
      obtain ⟨rfl, rfl⟩ := dividing_ok_eq_fault_iff.mp h
      constructor
    | addT a b | subT a b | mulT a b =>
      obtain ⟨ho, rfl⟩ := trapping_eq_fault_iff.mp h
      constructor
      exact of_decide_eq_true ho
    | add a b | sub a b | mul a b | and a b | or a b | xor a b | not a b | shl a b | shr a b | bswap a b
    | sigb a b | cmpeq a b | cmplt a b => cases h
  · cases h with
    | div a | rem a | divrem a => exact dividing_ok_eq_fault_iff.mpr ⟨rfl, rfl⟩
    | addT h | subT h | mulT h => exact trapping_eq_fault_iff.mpr ⟨decide_eq_true h, rfl⟩

/-- No operation raises IllegalOp: it is the decoder's fault (R101). -/
theorem closedForm_ne_illegalOp (i : Instr) : closedForm i ≠ .fault .illegalOp :=
  fun h => nomatch closedForm_eq_fault_iff.mp h

/-- Settles O46: each operation answers its closed form, and `closedForm_eq_fault_iff` says where that is a fault. -/
theorem operationFaultConditions : Obligations.OperationFaultConditions := by
  intro i s
  refine ⟨_, exec_eq_closedForm i s, ?_, ?_, ?_⟩ <;> rw [deliver_response]
  · rw [Option.some_inj, closedForm_eq_fault_iff, raises_divideByZero_iff]
  · rw [Option.some_inj, closedForm_eq_fault_iff, raises_overflow_iff]
  · exact fun h => closedForm_ne_illegalOp i (Option.some.inj h)

/-- A request is answered by IllegalOp exactly when it decodes to nothing (R101). -/
theorem answerOf_eq_illegalOp_iff {req : Request} :
    answerOf req = .fault .illegalOp ↔ ∃ e, decode req = .error e := by
  unfold answerOf
  cases decode req with
  | ok i => simp [closedForm_ne_illegalOp]
  | error e => simp

/-- With no `Reset` asserted, an outstanding request is answered by its closed form (R25, R32). -/
theorem step_eq_deliver_answerOf {s : State} {req : Request} (hreset : s.resetAsserted = false)
    (hreq : s.outstanding = some req) : step s = .next (s.deliver (answerOf req)) := by
  rw [step_outstanding hreset hreq, answerRequest_eq_answerOf]

/-- Settles O45: the answer by `answerOf_eq_illegalOp_iff`, and the operands by `decode_error_iff`, which reads the
opcode alone. -/
theorem illegalOpRaisedExactlyOnIllegalOpcode : Obligations.IllegalOpRaisedExactlyOnIllegalOpcode := by
  intro s req hreset hreq
  refine ⟨⟨_, step_eq_deliver_answerOf hreset hreq, ?_⟩, fun a b => ?_⟩
  · rw [deliver_response, Option.some_inj, answerOf_eq_illegalOp_iff]
  · rw [decode_error_iff, decode_error_iff]

/-! ## What a fault does to the unit and to the run -/

/-- The step that answers an outstanding request delivers the response it leaves in the response record (R104). -/
theorem eq_deliver_of_step {s t : State} {req : Request} {rsp : Response} (hreset : s.resetAsserted = false)
    (hreq : s.outstanding = some req) (hstep : step s = .next t) (hrsp : t.response = some rsp) :
    t = s.deliver rsp := by
  rw [step_eq_deliver_answerOf hreset hreq] at hstep
  obtain rfl := Host.Outcome.next.inj hstep
  rw [← Option.some.inj hrsp]

/-- Settles O48: the next state is `s.deliver (.fault c)`, in which no transaction is outstanding. -/
theorem faultIsDeliveredAsResponse : Obligations.FaultIsDeliveredAsResponse := by
  intro s t req c hreset hreq hstep hrsp
  obtain rfl := eq_deliver_of_step hreset hreq hstep hrsp
  exact ⟨rfl, rfl, fun _ => accept_idle (deliver_outstanding _ s)⟩

/-- A step that takes `Reset` does nothing else (R120). -/
theorem step_of_reset {s : State} (hreset : s.resetAsserted = true) : step s = .next s.takeReset := by
  rw [step, if_pos hreset]

/-- Settles O49: the fault is delivered, and a step from a faulted run takes `Reset` or is idle (`step_idle`). -/
theorem faultEndsTheRun : Obligations.FaultEndsTheRun := by
  refine ⟨fun s t req c hreset hreq hstep hrsp => ?_, fun s c hrun ho => ?_⟩
  · rw [eq_deliver_of_step hreset hreq hstep hrsp, deliver_run, runAfter_fault]
  · cases hreset : s.resetAsserted with
    | true =>
      refine ⟨_, step_of_reset hreset, ?_, takeReset_outstanding s, takeReset_issued s, takeReset_answered s,
        takeReset_program s⟩
      rw [takeReset_run, ho, runAfterReset_none, hrun]
    | false => exact ⟨s, step_idle hreset ho (by simp [hrun]), hrun, ho, rfl, rfl, rfl⟩

/-- A response that changes the outcome of a run is a fault, and the outcome is that fault (R105). -/
theorem fault_of_runAfter_ne {run : RunStatus} {rsp : Response} (h : runAfter run rsp ≠ run) :
    ∃ c, rsp = .fault c ∧ runAfter run rsp = .faulted c := by
  cases rsp with
  | ok r r2 ovf => exact absurd (runAfter_ok run r r2 ovf) h
  | fault c => exact ⟨c, rfl, runAfter_fault run c⟩

/-- `Reset` that changes the outcome of a run finds a transaction outstanding and cuts the run off (R121). -/
theorem outstanding_of_runAfterReset_ne {outstanding : Option Request} {run : RunStatus}
    (h : runAfterReset outstanding run ≠ run) :
    runAfterReset outstanding run = .cutOff ∧ ∃ req, outstanding = some req := by
  cases outstanding with
  | none => exact absurd (runAfterReset_none run) h
  | some req => exact ⟨runAfterReset_some run req, req, rfl⟩

/-- Settles O50, by the cases of `step_next`: `Reset`, a response, and the host's move, which changes the outcome only
where no line is left (`hostMove_next`). -/
theorem runOutcomeChangesOnlyByRule : Obligations.RunOutcomeChangesOnlyByRule := by
  intro s t hstep hne
  rcases step_next hstep with ⟨hreset, rfl⟩ | ⟨req, rsp, hreset, hreq, -, rfl⟩ | ⟨hreset, ho, hmove⟩
  · obtain ⟨hcut, hreq⟩ := outstanding_of_runAfterReset_ne hne
    exact .inl ⟨hcut, hreset, hreq⟩
  · obtain ⟨c, rfl, hrun⟩ := fault_of_runAfter_ne hne
    exact .inr (.inl ⟨c, hrun, deliver_response _ s, hreset, req, hreq⟩)
  · rcases hostMove_next hmove with ⟨hrun, hp, rfl⟩ | ⟨l, rest, req, -, -, -, -, rfl⟩ | ⟨-, rfl⟩
    · exact .inr (.inr ⟨rfl, hrun, hp, ho, hreset⟩)
    · exact absurd rfl hne
    · exact absurd rfl hne

/-- In a run whose next line names an unbound variable, the host has no request to present (R38). -/
theorem hostMove_of_unbound {s : State} {l : Line} {rest : List Line} (hrun : s.run = .running)
    (hp : s.program = l :: rest) (hl : lineRequest s.answered l = none) :
    s.hostMove = .refused .unboundVariable := by
  simp only [State.hostMove, hrun, hp, hl]

/-- A step of a run under way that issues the next line (R38, R105). -/
theorem step_issues {s : State} {l : Line} {rest : List Line} {req : Request} (hreset : s.resetAsserted = false)
    (ho : s.outstanding = none) (hrun : s.run = .running) (hp : s.program = l :: rest)
    (hl : lineRequest s.answered l = some req) :
    step s = .next { s with program := rest, outstanding := some req, issued := s.issued ++ [req] } := by
  rw [step_of_idle hreset ho, hostMove_of_line hrun hp hl]
  exact accept_idle ho

/-- Settles O54: `Reset` is taken, a request is answered, an idle machine stays, and the host of a run under way
finishes it, issues its next line, or finds that line unbound. -/
theorem stepStopsOnlyOnUnboundVariable : Obligations.StepStopsOnlyOnUnboundVariable := by
  intro s
  cases hreset : s.resetAsserted with
  | true => exact .inl ⟨_, step_of_reset hreset⟩
  | false =>
    cases ho : s.outstanding with
    | some req => exact .inl ⟨_, step_eq_deliver_answerOf hreset ho⟩
    | none =>
      by_cases hrun : s.run = .running
      · cases hp : s.program with
        | nil => exact .inl ⟨_, (step_of_idle hreset ho).trans (hostMove_of_nil hrun hp)⟩
        | cons l rest =>
          cases hl : lineRequest s.answered l with
          | some req => exact .inl ⟨_, step_issues hreset ho hrun hp hl⟩
          | none =>
            refine .inr ⟨?_, rfl, rfl, hrun, l, rest, rfl, hl⟩
            rw [step_of_idle hreset ho, hostMove_of_unbound hrun hp hl]
      · exact .inl ⟨s, step_idle hreset ho hrun⟩

/-- With no transaction outstanding, a run is started with its program and empty records (R105, R107). -/
theorem startRun_idle {p : List Line} {s : State} (ho : s.outstanding = none) :
    State.startRun p s = .next { s with program := p, issued := [], answered := [], run := .running } := by
  simp only [State.startRun, ho]

end Sys2Proof.Machine

/-! ## The run of a well-formed program -/

namespace Sys2Proof.Safety

open Sys2Proof.Machine

/-- A run just started has no request and no response, and its lines are bound because its program is well formed
(R38). -/
theorem Inv.started {p : List Line} {s : State} (ho : s.outstanding = none) (hp : programWellFormed p = true) :
    Inv { s with program := p, issued := [], answered := [], run := .running } where
  inOrder := rfl
  outstandingIsLast _ hreq := nomatch ho.symm.trans hreq
  allAnswered _ _ := rfl
  outcomeSound := rfl
  linesBound _ := hp

/-- Settles O57: `startRun_idle` gives the state, `Inv.started` its invariant. -/
theorem startedRunHasInvariant : Obligations.StartedRunHasInvariant :=
  fun _ _ ho hp => ⟨_, startRun_idle ho, Inv.started ho hp, rfl, rfl⟩

section bound
variable {answered : List Response} (hok : answered.all isOk = true)
include hok

/-- An operand bound by one of the lines answered so far has a value, every answer being OK (R38). -/
theorem operandValue_of_boundBefore {o : Operand} (hbound : o.boundBefore answered.length = true) :
    ∃ v, operandValue answered o = some v := by
  cases o with
  | lit v => exact ⟨v, rfl⟩
  | result k f =>
    have hk : k < answered.length := of_decide_eq_true hbound
    have hkok : isOk answered[k] = true := List.all_eq_true.mp hok _ (List.getElem_mem hk)
    simp only [operandValue, List.getElem?_eq_getElem hk]
    cases hrsp : answered[k] with
    | ok r r2 ovf => cases f <;> exact ⟨_, rfl⟩
    | fault c =>
      rw [hrsp] at hkok
      exact absurd hkok Bool.false_ne_true

/-- So a line bound by the lines answered so far forms a request. -/
theorem lineRequest_of_boundBefore {l : Line} (hbound : l.boundBefore answered.length = true) :
    ∃ req, lineRequest answered l = some req := by
  obtain ⟨hba, hbb⟩ := Bool.and_eq_true_iff.mp hbound
  obtain ⟨a, ha⟩ := operandValue_of_boundBefore hok hba
  obtain ⟨b, hb⟩ := operandValue_of_boundBefore hok hbb
  exact ⟨⟨l.opc, a, b⟩, lineRequest_eq_some.mpr ⟨rfl, ha, hb⟩⟩

/-- Responses without a fault make a run final (R105). -/
theorem outcomeOf_of_all_isOk : outcomeOf answered = .final := by
  unfold outcomeOf
  split
  · rename_i c hlast
    exact absurd (List.all_eq_true.mp hok _ (List.mem_of_getLast? hlast)) Bool.false_ne_true
  · rfl
  · rfl

end bound

/-- A fault as the last response makes a run faulted (R105). -/
theorem outcomeOf_append_fault (answered : List Response) (c : Fault) :
    outcomeOf (answered ++ [.fault c]) = .faulted c := by
  rw [outcomeOf, List.getLast?_concat]

/-- A run with all its responses is not cut off (R121). -/
theorem outcomeOf_ne_cutOff (answered : List Response) : outcomeOf answered ≠ .cutOff := by
  unfold outcomeOf
  split <;> exact RunStatus.noConfusion

section runAnswers
variable {l : Line} {rest : List Line} {done : List Response} {req : Request} (hl : lineRequest done l = some req)
include hl

/-- A line answered OK is followed by the rest of the program (R105). -/
theorem runAnswers_of_ok {r r2 : Value} {ovf : Bool} (h : answerOf req = .ok r r2 ovf) :
    runAnswers (l :: rest) done = runAnswers rest (done ++ [answerOf req]) := by
  simp only [runAnswers, hl, h]

/-- A line answered by a fault is the last (R105). -/
theorem runAnswers_of_fault {c : Fault} (h : answerOf req = .fault c) :
    runAnswers (l :: rest) done = done ++ [answerOf req] := by
  simp only [runAnswers, hl, h]

end runAnswers

/-- The state after the transaction of the next line: its request is issued and answered, and the rest of the program
is left (R24, R38). -/
def afterLine (s : State) (rest : List Line) (req : Request) : State :=
  State.deliver (answerOf req) { s with program := rest, outstanding := some req, issued := s.issued ++ [req] }

section afterLine
variable (s : State) (rest : List Line) (req : Request)
@[simp] theorem afterLine_resetAsserted : (afterLine s rest req).resetAsserted = s.resetAsserted := rfl
@[simp] theorem afterLine_outstanding : (afterLine s rest req).outstanding = none := rfl
@[simp] theorem afterLine_program : (afterLine s rest req).program = rest := rfl
@[simp] theorem afterLine_answered : (afterLine s rest req).answered = s.answered ++ [answerOf req] := rfl
@[simp] theorem afterLine_run : (afterLine s rest req).run = runAfter s.run (answerOf req) := rfl
end afterLine

/-- A run's next transaction takes two steps of the machine. -/
theorem core_run_afterLine {s : State} {l : Line} {rest : List Line} {req : Request}
    (hreset : s.resetAsserted = false) (ho : s.outstanding = none) (hrun : s.run = .running)
    (hp : s.program = l :: rest) (hl : lineRequest s.answered l = some req) (n : Nat) :
    Sys2Proof.core.run (n + 2) s = Sys2Proof.core.run n (afterLine s rest req) := by
  rw [core_run_succ (n + 1) (step_issues hreset ho hrun hp hl)]
  exact core_run_succ n (step_eq_deliver_answerOf hreset rfl)

/-- The invariant gives the next line of a run under way a request, and holds again after its transaction. -/
theorem Inv.nextLine {s : State} (hinv : Inv s) {l : Line} {rest : List Line} (ho : s.outstanding = none)
    (hrun : s.run = .running) (hp : s.program = l :: rest) :
    ∃ req, lineRequest s.answered l = some req ∧ Inv (afterLine s rest req) := by
  have hbound := hinv.linesBound hrun
  rw [hinv.allAnswered ho (by simp [hrun]), hp, programBound, Bool.and_eq_true] at hbound
  obtain ⟨req, hl⟩ := lineRequest_of_boundBefore (hinv.all_isOk_of_running hrun) hbound.1
  exact ⟨req, hl, (hinv.issue req ho hrun hp).deliver_answerOf rfl⟩

/-- From a run under way with no transaction outstanding, two steps a line and one more give the closed forms of the
lines left after the responses so far, and the run is over: by induction on the lines left. -/
theorem run_answers_closedForms {s : State} (hinv : Inv s) (hreset : s.resetAsserted = false)
    (ho : s.outstanding = none) (hrun : s.run = .running) :
    ∃ u, Sys2Proof.core.run (2 * s.program.length + 1) s = .next u ∧ Inv u ∧
      u.answered = runAnswers s.program s.answered ∧ u.run = outcomeOf u.answered ∧ u.outstanding = none := by
  induction hp : s.program generalizing s with
  | nil =>
    refine ⟨_, core_run_succ 0 ((step_of_idle hreset ho).trans (hostMove_of_nil hrun hp)),
      hinv.finish ho hrun hp, rfl, ?_, ho⟩
    exact (outcomeOf_of_all_isOk (hinv.all_isOk_of_running hrun)).symm
  | cons l rest ih =>
    obtain ⟨req, hl, hinv'⟩ := hinv.nextLine ho hrun hp
    have hsteps : 2 * (l :: rest).length + 1 = 2 * rest.length + 1 + 2 := by
      rw [List.length_cons]
      omega
    rw [hsteps, core_run_afterLine hreset ho hrun hp hl]
    have hreset' : (afterLine s rest req).resetAsserted = false := by rw [afterLine_resetAsserted, hreset]
    have hidle := afterLine_outstanding s rest req
    cases hans : answerOf req with
    | ok r r2 ovf =>
      have hrun' : (afterLine s rest req).run = .running := by rw [afterLine_run, hans, runAfter_ok, hrun]
      rw [runAnswers_of_ok hl hans, ← afterLine_answered s rest req]
      exact ih hinv' hreset' hidle hrun' (afterLine_program s rest req)
    | fault c =>
      have hrun' : (afterLine s rest req).run = .faulted c := by rw [afterLine_run, hans, runAfter_fault]
      rw [runAnswers_of_fault hl hans, ← afterLine_answered s rest req]
      refine ⟨_, core_run_idle hreset' hidle (hrun' ▸ RunStatus.noConfusion) _, hinv', rfl, ?_, hidle⟩
      rw [hrun', afterLine_answered, hans, outcomeOf_append_fault]

/-- Settles O60: the run just started meets the invariant (`Inv.started`), and `run_answers_closedForms` is about
every such run; the requests are counted by the invariant at its end. -/
theorem runAnswersAreTheClosedForms : Obligations.RunAnswersAreTheClosedForms := by
  intro p s ho hreset hp
  obtain ⟨u, hsteps, hinv, hanswered, hrun, hidle⟩ := run_answers_closedForms (Inv.started ho hp) hreset ho rfl
  refine ⟨_, u, startRun_idle ho, hsteps, hanswered, hanswered ▸ hrun, hinv.allAnswered hidle ?_, hidle⟩
  rw [hrun]
  exact outcomeOf_ne_cutOff u.answered

end Sys2Proof.Safety

/-! ## The same value on both ports -/

namespace Sys2Proof.Machine

section samePorts
variable (a : Value) (s : State)

/-- Doubling shifts the top bit out into the overflow flag (R46, R124). -/
theorem exec_add_self : exec (.add a a) s =
    .next (s.deliver (.ok (BitVec.ofNat 128 (2 * a.toNat)) 0#128 (a.getLsbD 127))) := by
  have hdouble : shiftLeft128 a 1 = BitVec.ofNat 128 (2 * a.toNat) := by
    apply BitVec.eq_of_toNat_eq
    rw [toNat_shiftLeft128, BitVec.toNat_ofNat, Nat.pow_one, Nat.mul_comm]
  rw [exec_add, add128_self, hdouble]

theorem exec_mul_self : exec (.mul a a) s = .next (s.deliver
    (.ok (BitVec.ofNat 128 (a.toNat ^ 2)) 0#128 (decide (2 ^ 128 ≤ a.toNat ^ 2)))) := by
  rw [exec_mul, mul128_eq, Nat.pow_two]

theorem exec_divrem_self (ha : a ≠ 0#128) :
    exec (.divrem a a) s = .next (s.deliver (.ok 1#128 0#128 false)) := by
  have hpos : 0 < a.toNat := Nat.pos_of_ne_zero (BitVec.toNat_ne.mp ha)
  rw [exec_divrem_of_ne_zero ha, Nat.div_self hpos, Nat.mod_self]

/-- A value shifted by itself is shifted by its low seven bits (R81, R124). -/
theorem exec_shl_self : exec (.shl a a) s = .next (s.deliver
    (.ok (BitVec.ofNat 128 (a.toNat * 2 ^ (a.extractLsb' 0 7).toNat)) 0#128 false)) := by
  have hamount : (a.extractLsb' 0 7).toNat = a.toNat % 128 := shiftAmount_eq a
  rw [exec_shl, shiftLeft128_shiftAmount, hamount]

end samePorts

/-- Settles O44, operation by operation: what each answers, at equal operands. -/
theorem sameValueOnBothPorts : Obligations.SameValueOnBothPorts := by
  refine fun a s => ⟨exec_add_self a s, ?sub, exec_mul_self a s, exec_divrem_self a s,
    (exec_of_closedForm_dividing rfl s).2, ?and, ?or, ?xor, ?cmpeq, ?cmplt, exec_shl_self a s⟩
  case sub => rw [exec_sub, sub128_self]
  case and => rw [exec_and, BitVec.and_self]
  case or => rw [exec_or, BitVec.or_self]
  case xor => rw [exec_xor, BitVec.xor_self]
  case cmpeq => rw [exec_cmpeq, verdict_valueEq, if_pos rfl]
  case cmplt => rw [exec_cmplt, verdict_valueLt, if_neg (lt_irrefl _)]

end Sys2Proof.Machine

/-! ## Reset at any time -/

namespace Sys2Proof.Machine

/-- The host's move writes no response (R31). -/
theorem hostMove_response {s t : State} (h : s.hostMove = .next t) : t.response = s.response := by
  rcases hostMove_next h with ⟨-, -, rfl⟩ | ⟨_, _, _, -, -, -, -, rfl⟩ | ⟨-, rfl⟩ <;> rfl

/-- With no transaction outstanding, a step keeps an empty response record empty: it takes `Reset` or lets the host
move (R19, R31). -/
theorem step_response_of_idle {s t : State} (hrsp : s.response = none) (ho : s.outstanding = none)
    (hstep : step s = .next t) : t.response = none := by
  rcases step_next hstep with ⟨-, rfl⟩ | ⟨req, rsp, -, hreq, -, -⟩ | ⟨-, -, hmove⟩
  · exact takeReset_response s
  · exact nomatch ho.symm.trans hreq
  · rw [hostMove_response hmove, hrsp]

/-- Settles O52: the step with `Reset` asserted takes it (`step_of_reset`), and `takeReset` says field by field what it
leaves; the unit it leaves is idle and accepts (`accept_idle`). -/
theorem resetDiscardsTheTransaction : Obligations.ResetDiscardsTheTransaction := by
  refine ⟨fun s => ⟨s.assertReset.takeReset, step_of_reset (assertReset_resetAsserted s), rfl, rfl, rfl, rfl, rfl, rfl,
    fun req hreq => ?_, fun _ => accept_idle (takeReset_outstanding _)⟩, fun _ _ => step_response_of_idle⟩
  rw [takeReset_run, assertReset_outstanding, hreq, runAfterReset_some]

end Sys2Proof.Machine

/-! ## A run ends within the steps it has left -/

namespace Sys2Proof.Safety

open Sys2Proof.Machine

/-- The responses of a whole run make an outcome that is not under way (R105). -/
theorem outcomeOf_ne_running (answered : List Response) : outcomeOf answered ≠ .running := by
  unfold outcomeOf
  split <;> exact RunStatus.noConfusion

section stepsLeft
variable {s : State}

theorem stepsLeft_of_not_running (hrun : s.run ≠ .running) : stepsLeft s = 0 := by
  unfold stepsLeft
  cases h : s.run with
  | running => exact absurd h hrun
  | noRun | final | faulted _ | cutOff => rfl

theorem stepsLeft_of_idle (hrun : s.run = .running) (ho : s.outstanding = none) :
    stepsLeft s = 2 * s.program.length + 1 := by
  simp only [stepsLeft, hrun, ho]

theorem stepsLeft_of_outstanding {req : Request} (hrun : s.run = .running) (hreq : s.outstanding = some req) :
    stepsLeft s = 2 * s.program.length + 1 + 1 := by
  simp only [stepsLeft, hrun, hreq]

end stepsLeft

/-- With no transaction outstanding, two steps for each line left and one more end a run, if one is under way at all. -/
theorem Inv.run_ends_of_idle {s : State} (hinv : Inv s) (hreset : s.resetAsserted = false)
    (ho : s.outstanding = none) :
    ∃ t, Sys2Proof.core.run (2 * s.program.length + 1) s = .next t ∧ t.run ≠ .running := by
  by_cases hrun : s.run = .running
  · obtain ⟨u, hsteps, -, -, houtcome, -⟩ := run_answers_closedForms hinv hreset ho hrun
    exact ⟨u, hsteps, houtcome ▸ outcomeOf_ne_running u.answered⟩
  · exact ⟨s, core_run_idle hreset ho hrun _, hrun⟩

/-- Settles O59: an outstanding transaction is answered in one step, which leaves the same lines, keeps the invariant
and leaves no transaction outstanding (`Inv.run_ends_of_idle`). -/
theorem runEndsWithinStepsLeft : Obligations.RunEndsWithinStepsLeft := by
  intro s hinv hreset
  by_cases hrun : s.run = .running
  · cases ho : s.outstanding with
    | none =>
      rw [stepsLeft_of_idle hrun ho]
      exact hinv.run_ends_of_idle hreset ho
    | some req =>
      rw [stepsLeft_of_outstanding hrun ho, core_run_succ _ (step_eq_deliver_answerOf hreset ho)]
      exact (hinv.deliver_answerOf ho).run_ends_of_idle hreset rfl
  · rw [stepsLeft_of_not_running hrun]
    exact ⟨s, rfl, hrun⟩

end Sys2Proof.Safety
